-- ==== Sys2Proof/Word.lean ====
section
/-! DEFINITION. The word types of MCPCODEC: the exchanged byte, the wide identifier operand and the
packed identifier widths (00_scope.md R7). -/

namespace Sys2Proof

/-- One exchanged unit, one register, one address, index, length, mask or value operand
(R7 `BYTE`, `ADDR_W`, `IDX_W`, `LEN_W`: 8 bits each). -/
abbrev Byte := BitVec 8

/-- The identifier operand on the command port (R7 `ID_OPND_W`), wider than every legal identifier. -/
abbrev IdOperand := BitVec 32

/-- A Standard identifier (R7 `ID_STD_W`). -/
abbrev StdId := BitVec 11

/-- An Extended identifier (R7 `ID_EXT_W`). -/
abbrev ExtId := BitVec 29

end Sys2Proof
end

