-- ==== Sys2Proof/Config.lean ====
section
/-! DEFINITION. What is fixed for one machine (the parameters of 00_scope.md R7, held as plain data in
State) and the free values, which have no body. -/

namespace Sys2Proof.Config

/-- `REMOTE_DLC` (R7, R153): whether a remote frame's data-length byte carries the length. -/
inductive RemoteDlc where
  | length
  | zero
  deriving DecidableEq, Repr

/-- A buffer family of the address map: `A_X(n) = A_X(0) + n * STRIDE_X` (R8). -/
structure Family where
  base   : Byte
  stride : Byte
  deriving DecidableEq, Repr

/-- `AddrMap` (R8): the named register addresses. The buffer families are evenly spaced; the six
filters and two masks are tables, since R9 gives the filters no common stride. -/
structure AddrMap where
  canstat : Byte
  canctrl : Byte
  canintf : Byte
  caninte : Byte
  cnf1    : Byte
  cnf2    : Byte
  cnf3    : Byte
  txbCtrl : Family
  txbSidh : Family
  txbDlc  : Family
  rxbCtrl : Family
  rxbSidh : Family
  rxbDlc  : Family
  rxfSidh : Vector Byte 6
  rxmSidh : Vector Byte 2
  deriving DecidableEq, Repr

/-- The five operating modes of the controller (R181; host-level). -/
inductive Mode where
  | normal
  | sleep
  | loopback
  | listenOnly
  | configuration
  deriving DecidableEq, Repr

/-- `MODE_CODE` (R7, R181): the 3-bit code of each mode. -/
structure ModeCodes where
  normal        : BitVec 3
  sleep         : BitVec 3
  loopback      : BitVec 3
  listenOnly    : BitVec 3
  configuration : BitVec 3
  deriving DecidableEq, Repr

/-- The five modes, in R181's order. -/
def Mode.all : List Mode := [.normal, .sleep, .loopback, .listenOnly, .configuration]

/-- `MODE_CODE(mode)` (R181). -/
def ModeCodes.code (c : ModeCodes) : Mode → BitVec 3
  | .normal => c.normal
  | .sleep => c.sleep
  | .loopback => c.loopback
  | .listenOnly => c.listenOnly
  | .configuration => c.configuration

/-- A mode field "mapped back through `MODE_CODE`" (R182); none where it "is no mode's code" (U17). Where two modes
were given one code the first in R181's order is meant (DESIGN CHOICE, log entry 24; no default code is shared). -/
def ModeCodes.mode? (c : ModeCodes) (v : BitVec 3) : Option Mode := Mode.all.find? fun m => c.code m == v

/-- The three-way result of `getTransmitError` (R186; host-level). -/
inductive TransmitError where
  | noError
  | lostArbitration
  | otherError
  deriving DecidableEq, Repr

/-- The parameters of the model (R7). No step changes them. `bothErrors` is the open result of
`getTransmitError` when both error bits are 1 (R186, decision D35). -/
structure Params where
  map        : AddrMap
  rxRtrBit   : Fin 8
  remoteDlc  : RemoteDlc
  dummyTx    : Byte
  modeCode   : ModeCodes
  rxIfBit0   : Fin 8
  rxIfBit1   : Fin 8
  merrfBit   : Fin 8
  bothErrors : TransmitError
  deriving DecidableEq, Repr

/-- The default address map. PRESUMED (log entry 2): all of it is R9, "from general knowledge, not in
source". Unsafe for claims about numeric addresses. -/
def AddrMap.default : AddrMap where
  canstat := 0x0E
  canctrl := 0x0F
  canintf := 0x2C
  caninte := 0x2B
  cnf1 := 0x2A
  cnf2 := 0x29
  cnf3 := 0x28
  txbCtrl := ⟨0x30, 0x10⟩
  txbSidh := ⟨0x31, 0x10⟩
  txbDlc := ⟨0x35, 0x10⟩
  rxbCtrl := ⟨0x60, 0x10⟩
  rxbSidh := ⟨0x61, 0x10⟩
  rxbDlc := ⟨0x65, 0x10⟩
  rxfSidh := #v[0x00, 0x04, 0x08, 0x10, 0x14, 0x18]
  rxmSidh := #v[0x20, 0x24]

/-- The default mode codes. PRESUMED (log entry 3): R181's defaults from general knowledge. -/
def ModeCodes.default : ModeCodes where
  normal := 0b000
  sleep := 0b001
  loopback := 0b010
  listenOnly := 0b011
  configuration := 0b100

/-- The parameter values State.reset takes: R7's values, with the OPEN ones at their defaults.
PRESUMED (log entries 2, 3); `bothErrors` DESIGN CHOICE (log entry 24). -/
def Params.default : Params where
  map := AddrMap.default
  rxRtrBit := 3
  remoteDlc := .length
  dummyTx := 0x00
  modeCode := ModeCodes.default
  rxIfBit0 := 0
  rxIfBit1 := 1
  merrfBit := 7
  bothErrors := .lostArbitration

/-- FREE VALUE (log entry 5): the n-th answer of the environment that was not fixed in advance. R13:
"the block's rules place no constraint on it". -/
opaque oracleByte : Nat → Byte

/-- FREE VALUE (log entry 6): the n-th unspecified payload byte of a remote decode (R159: "a model
draws them freely at each such RXFRAME"). -/
opaque unspecifiedByte : Nat → Byte

/-- A bit-timing triple (CNF1, CNF2, CNF3) (R189). -/
structure Timing where
  cnf1 : Byte
  cnf2 : Byte
  cnf3 : Byte
  deriving DecidableEq, Repr, Inhabited

/-- FREE VALUE (log entry 24): the rows of the bit-timing table that the spec does not print, by clock (kHz) and data
rate (kbps); none where the table has no such row (R189, N14). -/
opaque timingRow : Nat → Nat → Option Timing

/-- FREE VALUE (log entry 24): the 125 kbps triple of a clock (kHz), which the spec does not print (R189, N14). -/
opaque timing125 : Nat → Timing

end Sys2Proof.Config
end

