-- ==== Sys2Proof/Syntax.lean ====
section
/-! DEFINITION. The syntax of both encodings (30_encoding.md R80): the operations with their operands,
the fields of the command port, the wire-level opcodes, and what can be presented to the machine. -/

namespace Sys2Proof

/-- Frame type of the data model (R21 `F.frameType`, R23 `SF.frameType`): 0 Standard, 1 Extended. -/
inductive FrameType where
  | standard
  | extended
  deriving DecidableEq, Repr

/-- Start point of a fast-path read (R21 `PT`): 0 the identifier block, 1 the data bytes. -/
inductive StartPoint where
  | ident
  | data
  deriving DecidableEq, Repr

/-- The frame operand `F` (R21, the source's CanFrame), at the operand widths of the command port, so
that out-of-range values can be presented and are rejected. -/
structure CanFrame where
  frameType  : FrameType
  isRemote   : Bool
  id         : IdOperand
  dataLength : Byte
  data       : Vector Byte 8
  deriving DecidableEq, Repr

/-- The instructions: one constructor per row of spec/opcode_table.json. The first twelve are the
command-level operations (R81) with the operands R21 gives them; the thirteen `w…` are the wire-level
instructions (R82, R83), one bracket each, with the bytes the bracket carries. -/
inductive Instr where
  | reset
  | read (addr : Byte)
  | write (addr len : Byte) (wbuf : Vector Byte 13)
  | bitmod (addr mask val : Byte)
  | rdstat
  | rxstat
  | rts (idx : Byte)
  | rdrxb (idx : Byte) (pt : StartPoint) (len : Byte)
  | setsid (idx : Byte) (id : IdOperand)
  | seteid (idx : Byte) (id : IdOperand)
  | txframe (idx : Byte) (f : CanFrame)
  | rxframe (idx : Byte)
  | wReset
  | wRead (addr : Byte)
  | wWrite (addr : Byte) (bytes : List Byte)
  | wBitmod (addr mask val : Byte)
  | wRdstat
  | wRxstat
  | wRts0
  | wRts1
  | wRts2
  | wRdrxb0Id (k : Nat)
  | wRdrxb0Data (k : Nat)
  | wRdrxb1Id (k : Nat)
  | wRdrxb1Data (k : Nat)
  deriving DecidableEq, Repr

/-- The fields of the command port (R20, R21; R105: "the operands are separate fields of the port"). -/
structure Port where
  op    : BitVec 4
  idx   : Byte
  addr  : Byte
  mask  : Byte
  val   : Byte
  len   : Byte
  wbuf  : Vector Byte 13
  pt    : StartPoint
  frame : CanFrame
  deriving DecidableEq, Repr

/-- The thirteen first bytes of a bracket (R82). -/
inductive WireOp where
  | reset
  | read
  | write
  | bitmod
  | rdstat
  | rxstat
  | rts0
  | rts1
  | rts2
  | rdrxb0Id
  | rdrxb0Data
  | rdrxb1Id
  | rdrxb1Data
  deriving DecidableEq, Repr

/-- What can be presented to the machine as its next instruction: an operation on the command port, or
the bytes one bracket sends (R80, the two levels). -/
inductive Presented where
  | command (p : Port)
  | wire (bytes : List Byte)
  deriving DecidableEq, Repr

/-- Why the decoder refuses, by name: a reserved `OP` (R101), a bracket with no byte (R28 asks at least
one), a first byte outside R82 (R99), a length that is no length of the opcode's format (R83). -/
inductive DecodeError where
  | reservedOp (op : BitVec 4)
  | emptyBracket
  | unknownOpcode (first : Byte)
  | badLength (op : WireOp)
  deriving DecidableEq, Repr

end Sys2Proof
end

