-- ==== Sys2Proof/WellFormed.lean ====
section
/-! DEFINITION. Which instructions an encoding can hold (30_encoding.md R83, R103; opcode table). -/

namespace Sys2Proof

/-- Well-formed instructions. Every command-level operand fits its port field by its type, so every
command is well-formed (an operand outside its legal range is presented and rejected, R21). A wire-level
bracket carries 1 to 13 data bytes (WRITE, fast-path read from the identifier start) or 1 to 8 (from the
data start), as the opcode table says. -/
def Instr.wf : Instr → Bool
  | .reset => true
  | .read _ => true
  | .write _ _ _ => true
  | .bitmod _ _ _ => true
  | .rdstat => true
  | .rxstat => true
  | .rts _ => true
  | .rdrxb _ _ _ => true
  | .setsid _ _ => true
  | .seteid _ _ => true
  | .txframe _ _ => true
  | .rxframe _ => true
  | .wReset => true
  | .wRead _ => true
  | .wWrite _ bytes => decide (1 ≤ bytes.length ∧ bytes.length ≤ 13)
  | .wBitmod _ _ _ => true
  | .wRdstat => true
  | .wRxstat => true
  | .wRts0 => true
  | .wRts1 => true
  | .wRts2 => true
  | .wRdrxb0Id k => decide (1 ≤ k ∧ k ≤ 13)
  | .wRdrxb0Data k => decide (1 ≤ k ∧ k ≤ 8)
  | .wRdrxb1Id k => decide (1 ≤ k ∧ k ≤ 13)
  | .wRdrxb1Data k => decide (1 ≤ k ∧ k ≤ 8)

end Sys2Proof
end

