-- ==== Sys2Proof/Decode.lean ====
section
/-! DEFINITION. The decoders of both levels, the encoder, and the host's table word
(30_encoding.md R81 to R87, R95, R97 to R99, R101). -/

namespace Sys2Proof

/-- The opcode byte of each wire-level instruction (R82, "bit-exact, must reproduce precisely"). -/
def WireOp.byte : WireOp → Byte
  | .reset => 0xC0
  | .read => 0x03
  | .write => 0x02
  | .bitmod => 0x05
  | .rdstat => 0xA0
  | .rxstat => 0xB0
  | .rts0 => 0x81
  | .rts1 => 0x82
  | .rts2 => 0x84
  | .rdrxb0Id => 0x90
  | .rdrxb0Data => 0x92
  | .rdrxb1Id => 0x94
  | .rdrxb1Data => 0x96

/-- The thirteen rows of R82, in its order. -/
def WireOp.all : List WireOp :=
  [.reset, .read, .write, .bitmod, .rdstat, .rxstat, .rts0, .rts1, .rts2,
   .rdrxb0Id, .rdrxb0Data, .rdrxb1Id, .rdrxb1Data]

/-- A wire-level decoder "compares the first byte of a bracket for equality with the 13 values" (R98). -/
def WireOp.ofByte? (b : Byte) : Option WireOp :=
  WireOp.all.find? fun o => o.byte == b

/-- The command-level decoder: `OP` selects the operation (R81), which reads the fields of its format
(R84 to R87) and no other (R21). `OP` 0xC..0xF is reserved (R101). -/
def decodeCommand (p : Port) : Except DecodeError Instr :=
  match p.op.toNat with
  | 0x0 => .ok .reset
  | 0x1 => .ok (.read p.addr)
  | 0x2 => .ok (.write p.addr p.len p.wbuf)
  | 0x3 => .ok (.bitmod p.addr p.mask p.val)
  | 0x4 => .ok .rdstat
  | 0x5 => .ok .rxstat
  | 0x6 => .ok (.rts p.idx)
  | 0x7 => .ok (.rdrxb p.idx p.pt p.len)
  | 0x8 => .ok (.setsid p.idx p.frame.id)
  | 0x9 => .ok (.seteid p.idx p.frame.id)
  | 0xA => .ok (.txframe p.idx p.frame)
  | 0xB => .ok (.rxframe p.idx)
  | _ => .error (.reservedOp p.op)

/-- A format-WR bracket after its opcode: `k` bytes sent while reading, 1 to `max` of them (R83). -/
def decodeReads (op : WireOp) (max : Nat) (mk : Nat → Instr) (rest : List Byte) :
    Except DecodeError Instr :=
  if 1 ≤ rest.length ∧ rest.length ≤ max then .ok (mk rest.length) else .error (.badLength op)

/-- The bytes after the opcode, read by the opcode's format (R83). The values sent in read positions do
not matter (DEDUCED, log entry 21: R71 `RdData`, "`t` ignored"). -/
def decodeRest (op : WireOp) (rest : List Byte) : Except DecodeError Instr :=
  match op with
  | .reset => if rest.isEmpty then .ok .wReset else .error (.badLength op)
  | .read =>
    match rest with
    | [a, _] => .ok (.wRead a)
    | _ => .error (.badLength op)
  | .write =>
    match rest with
    | a :: bytes =>
      if 1 ≤ bytes.length ∧ bytes.length ≤ 13 then .ok (.wWrite a bytes) else .error (.badLength op)
    | [] => .error (.badLength op)
  | .bitmod =>
    match rest with
    | [a, m, v] => .ok (.wBitmod a m v)
    | _ => .error (.badLength op)
  | .rdstat => decodeReads op 1 (fun _ => .wRdstat) rest
  | .rxstat => decodeReads op 1 (fun _ => .wRxstat) rest
  | .rts0 => if rest.isEmpty then .ok .wRts0 else .error (.badLength op)
  | .rts1 => if rest.isEmpty then .ok .wRts1 else .error (.badLength op)
  | .rts2 => if rest.isEmpty then .ok .wRts2 else .error (.badLength op)
  | .rdrxb0Id => decodeReads op 13 .wRdrxb0Id rest
  | .rdrxb0Data => decodeReads op 8 .wRdrxb0Data rest
  | .rdrxb1Id => decodeReads op 13 .wRdrxb1Id rest
  | .rdrxb1Data => decodeReads op 8 .wRdrxb1Data rest

/-- The wire-level decoder, on the bytes one bracket sends, between `SEL` and `DES` (R82, R83, R99). -/
def decodeWire : List Byte → Except DecodeError Instr
  | [] => .error .emptyBracket
  | b :: rest =>
    match WireOp.ofByte? b with
    | none => .error (.unknownOpcode b)
    | some op => decodeRest op rest

/-- Decoding, total on whatever is presented (R80). -/
def decode : Presented → Except DecodeError Instr
  | .command p => decodeCommand p
  | .wire bytes => decodeWire bytes

/-- The frame operand with every field 0. -/
def CanFrame.zero : CanFrame where
  frameType := .standard
  isRemote := false
  id := 0
  dataLength := 0
  data := Vector.replicate 8 0

/-- The command port with `OP` as given and every operand field 0. An operation ignores the fields its
rule does not name (R21); the encoder leaves those 0 (DESIGN CHOICE, log entry 23). -/
def Port.ofOp (op : BitVec 4) : Port where
  op := op
  idx := 0
  addr := 0
  mask := 0
  val := 0
  len := 0
  wbuf := Vector.replicate 13 0
  pt := .ident
  frame := CanFrame.zero

/-- The encoder of both levels (R81, R84 to R87 and R82, R83); `dummy` is `DUMMY_TX`, sent in every read
position (R88). -/
def encode (dummy : Byte) : Instr → Presented
  | .reset => .command (Port.ofOp 0x0)
  | .read addr => .command { Port.ofOp 0x1 with addr := addr }
  | .write addr len wbuf => .command { Port.ofOp 0x2 with addr := addr, len := len, wbuf := wbuf }
  | .bitmod addr mask val => .command { Port.ofOp 0x3 with addr := addr, mask := mask, val := val }
  | .rdstat => .command (Port.ofOp 0x4)
  | .rxstat => .command (Port.ofOp 0x5)
  | .rts idx => .command { Port.ofOp 0x6 with idx := idx }
  | .rdrxb idx pt len => .command { Port.ofOp 0x7 with idx := idx, pt := pt, len := len }
  | .setsid idx id => .command { Port.ofOp 0x8 with idx := idx, frame := { CanFrame.zero with id := id } }
  | .seteid idx id => .command { Port.ofOp 0x9 with idx := idx, frame := { CanFrame.zero with id := id } }
  | .txframe idx f => .command { Port.ofOp 0xA with idx := idx, frame := f }
  | .rxframe idx => .command { Port.ofOp 0xB with idx := idx }
  | .wReset => .wire [0xC0]
  | .wRead addr => .wire [0x03, addr, dummy]
  | .wWrite addr bytes => .wire (0x02 :: addr :: bytes)
  | .wBitmod addr mask val => .wire [0x05, addr, mask, val]
  | .wRdstat => .wire [0xA0, dummy]
  | .wRxstat => .wire [0xB0, dummy]
  | .wRts0 => .wire [0x81]
  | .wRts1 => .wire [0x82]
  | .wRts2 => .wire [0x84]
  | .wRdrxb0Id k => .wire (0x90 :: List.replicate k dummy)
  | .wRdrxb0Data k => .wire (0x92 :: List.replicate k dummy)
  | .wRdrxb1Id k => .wire (0x94 :: List.replicate k dummy)
  | .wRdrxb1Data k => .wire (0x96 :: List.replicate k dummy)

/-- How many bytes the shortest bracket of an opcode has after its first byte (R83). -/
def WireOp.minRest : WireOp → Nat
  | .reset => 0
  | .read => 2
  | .write => 2
  | .bitmod => 3
  | .rdstat => 1
  | .rxstat => 1
  | .rts0 => 0
  | .rts1 => 0
  | .rts2 => 0
  | .rdrxb0Id => 1
  | .rdrxb0Data => 1
  | .rdrxb1Id => 1
  | .rdrxb1Data => 1

/-- The instruction of an opcode-table word as it is presented to the machine. A word of at most 4 bits is
an `OP` on the command port. A wider word is the bytes of a bracket, first byte least significant,
completed with zeros to the shortest bracket of its opcode; a wider word whose first byte is no wire
opcode is an `OP` when it is below 0x10 (DESIGN CHOICE, log entry 13: the table's two levels overlap at
0x02, 0x03 and 0x05 when both are counted in whole bytes). -/
def tableWord (nbits w : Nat) : Presented :=
  if nbits ≤ 4 then
    .command (Port.ofOp (BitVec.ofNat 4 w))
  else
    match WireOp.ofByte? (BitVec.ofNat 8 w) with
    | some op =>
      .wire ((List.range (max (nbits / 8) (1 + op.minRest))).map fun j => BitVec.ofNat 8 (w >>> (8 * j)))
    | none =>
      if w < 16 then .command (Port.ofOp (BitVec.ofNat 4 w)) else .wire [BitVec.ofNat 8 w]

/-- The instruction the decoder reads from an opcode-table word (fixed name of the host). -/
def decodeTableWord (nbits w : Nat) : Option Instr :=
  match decode (tableWord nbits w) with
  | .ok i => some i
  | .error _ => none

end Sys2Proof
end

