-- ==== Sys2Proof/Machine/State.lean ====
section
/-! DEFINITION. The machine's state as plain data: the block (10_state.md), its ports, the trace, the
reference responder MOCK (20_memory.md R70), the parameters (00_scope.md R7) and what the host and the
environment do next; the stops; and the state after reset (10_state.md R41). -/

namespace Sys2Proof.Machine

open Sys2Proof.Config

/-- The chip-select output (R28). -/
inductive ChipSelect where
  | deselected
  | selected
  deriving DecidableEq, Repr

/-- A transport event as the trace records it (R13, R14): `SEL`, `X(t, r)`, `DES`. -/
inductive Event where
  | sel
  | x (t r : Byte)
  | des
  deriving DecidableEq, Repr

/-- One exchange as an operation's rule writes it: a byte whose answer is discarded, or `DUMMY_TX` sent
for a byte whose answer is used (R83 `t` and `r`, R88). -/
inductive Xfer where
  | send (t : Byte)
  | recv
  deriving DecidableEq, Repr

/-- One transport event an operation is going to issue (R13, R29). -/
inductive Act where
  | sel
  | xfer (x : Xfer)
  | des
  deriving DecidableEq, Repr

/-- The scratch frame `SF` (R23). -/
structure ScratchFrame where
  valid      : Bool
  frameType  : FrameType
  isRemote   : Bool
  id         : ExtId
  dataLength : BitVec 4
  data       : Vector Byte 8
  deriving DecidableEq, Repr

/-- What the result port presents (R22): nothing beyond `STATUS`, `RES`, `RBLK`, or a copy of `SF`. -/
inductive Result where
  | none
  | byte (res : Byte)
  | block (rblk : List Byte)
  | frame (sf : ScratchFrame)
  deriving DecidableEq, Repr

/-- What the host, or the test bench, does next. `issue` and `start` present an operation: run in one step,
or one step per transport event (R29, D4). `reset` asserts the block's reset (R240, R242). `readFrame` reads
`SF` through the result port (R24). `deliver` is MOCK's frame delivery (R76). `wait` lets one step pass, so that a
later move can come after any number of an operation's events (R242; log entry 16). -/
inductive Move where
  | issue (w : Presented)
  | start (w : Presented)
  | reset
  | readFrame
  | deliver (n : Fin 3) (m : Fin 2)
  | wait
  deriving DecidableEq, Repr

/-- Who answers an exchange: the real environment, whose answers nothing constrains (R13, R64), or the
reference responder (R70). -/
inductive EnvKind where
  | oracle
  | mock
  deriving DecidableEq, Repr

/-- The phases of MOCK within a bracket (R70). `refused` is the model's form of "MOCK refuses (the
simulation stops with an error)" (R71; log entry 19). -/
inductive Phase where
  | idle
  | opcode
  | addr
  | rdData
  | wrData
  | bmMask
  | bmVal
  | stat
  | done
  | refused
  deriving DecidableEq, Repr

/-- The reference responder's state (R70). `reg` lists (address, byte) pairs in canonical form: addresses
strictly rising and below 256, no entry 0x00, which is what an unlisted register reads as. -/
structure Mock where
  reg : List Host.Cell
  ptr : Byte
  ph  : Phase
  ins : Byte
  bma : Byte
  bmm : Byte
  deriving DecidableEq, Repr

/-- The whole machine. `params`: R7. `cs` to `rx`: the block (R23, R26, R28, R29); `cur` is the latched
operation, empty exactly when the block is idle; `seq` the index of its next event; `rx` the bytes received
so far in it. `result`: the result port (R22). `mock`: R70. The model's own: `trace`, every event issued
since reset, oldest first (R14); `moves`, what the host does next; `env`, who answers; `answers`, the
oracle's answers fixed in advance; `fresh`, how many free values have been drawn. -/
structure State where
  params  : Params
  cs      : ChipSelect
  status  : BitVec 3
  sf      : ScratchFrame
  cur     : Option Instr
  seq     : Nat
  rx      : List Byte
  result  : Result
  mock    : Mock
  trace   : List Event
  moves   : List Move
  env     : EnvKind
  answers : List Byte
  fresh   : Nat
  deriving DecidableEq, Repr

/-- The faults. -/
inductive Fault where
  /-- Raised by the step that performs the host's read of `SF` while `SF.valid` = 0 (R24, R41, R210, U4).
  Safe: the spec asks a model for this fault. -/
  | scratchFrameInvalid
  deriving DecidableEq, Repr

/-- The refusals. -/
inductive Refusal where
  /-- Raised by an arm of exec whose instruction has no meaning yet; no arm does. Safe. -/
  | notModelled (mnemonic : String)
  /-- Raised by step when the bracket presented at the wire level is none of R82's forms (R99, U9:
  "a wire-level decoder or MOCK: refuse"). Safe: the block never sends such a bracket. -/
  | wireBracket (e : DecodeError)
  /-- Raised by step when MOCK answers and has met a first byte outside R82 (R71: "MOCK refuses (the simulation
  stops with an error; the block never sends such a byte)"). Safe. -/
  | mockRefuses
  deriving DecidableEq, Repr

/-- `SF` after reset: `valid` 0 (R41). The other fields are "unspecified; not readable while `SF.valid` = 0";
zeros are a DESIGN CHOICE (log entry 7). Unsafe for a claim about those fields. -/
def ScratchFrame.reset : ScratchFrame where
  valid := false
  frameType := .standard
  isRemote := false
  id := 0
  dataLength := 0
  data := Vector.replicate 8 0

/-- MOCK's initial state (R70): every register 0x00 except the mode field of `CANSTAT`, which holds the code of
Configuration (0b100 in bits 7..5 at the default address); `PH` idle. R70 gives `PTR`, `INS`, `BMA`, `BMM` no
value: 0x00 is a DESIGN CHOICE (log entry 18). -/
def Mock.initial : Mock where
  reg := [(0x0E, 0x80)]
  ptr := 0
  ph := .idle
  ins := 0
  bma := 0
  bmm := 0

/-- The machine right after reset (R41, R240): deselected, idle, `STATUS` = OK, `SF` invalid, nothing on the
result port, no event issued, no host move pending. The environment is the oracle with no answer fixed
(DESIGN CHOICE, log entries 5, 27). -/
def State.reset : State where
  params := Params.default
  cs := .deselected
  status := 0
  sf := ScratchFrame.reset
  cur := none
  seq := 0
  rx := []
  result := .none
  mock := Mock.initial
  trace := []
  moves := []
  env := .oracle
  answers := []
  fresh := 0

end Sys2Proof.Machine
end

