-- ==== Sys2Proof/Machine/Flags.lean ====
section
/-! DEFINITION. The block's only flag, the completion code `STATUS` (10_state.md R26, R27), and the checks
that choose it (60_exceptions.md R211 to R214; 41_frame_codec.md R154). -/

namespace Sys2Proof.Machine

/-- Code 0 (R27): "the operation ran all its brackets". -/
def Status.ok : BitVec 3 := 0

/-- Code 1 (R27, R211): `OP` is not one of the twelve operation codes. -/
def Status.errOp : BitVec 3 := 1

/-- Code 2 (R27, R212): `IDX` outside the buffer range of the operation. -/
def Status.errIndex : BitVec 3 := 2

/-- Code 3 (R27, R214): `LEN` or `F.dataLength` outside its range. -/
def Status.errLen : BitVec 3 := 3

/-- Code 4 (R27, R213): `F.id` does not fit the width of the frame type. -/
def Status.errId : BitVec 3 := 4

/-- Transmit buffers are indices 0..2 (R21, R212). -/
def txIndexOk (idx : Byte) : Bool := decide (idx.toNat ≤ 2)

/-- Receive buffers are indices 0..1 (R21, R212). -/
def rxIndexOk (idx : Byte) : Bool := decide (idx.toNat ≤ 1)

/-- The legal lengths of a WRITE, 1..13 (R122, R214). -/
def writeLenOk (len : Nat) : Bool := decide (1 ≤ len ∧ len ≤ 13)

/-- The legal counts of a fast-path read: 1..13 from the identifier start, 1..8 from the data start
(R127, R214). -/
def readLenOk (pt : StartPoint) (len : Nat) : Bool :=
  match pt with
  | .ident => decide (1 ≤ len ∧ len ≤ 13)
  | .data => decide (1 ≤ len ∧ len ≤ 8)

/-- The legal data lengths of a frame, 0..8 (R21, R214). -/
def dataLengthOk (dataLength : Byte) : Bool := decide (dataLength.toNat ≤ 8)

/-- `IdFits` (R154). -/
def idFits (ty : FrameType) (id : IdOperand) : Bool :=
  match ty with
  | .standard => decide (id.toNat ≤ 0x7FF)
  | .extended => decide (id.toNat ≤ 0x1FFFFFFF)

/-- The code an operation is rejected with, if it is: the first failing check in the order ERR_INDEX, ERR_LEN,
ERR_ID (R216, R220). A wire-level bracket has the length check of its primitive operation. -/
def Instr.rejection : Instr → Option (BitVec 3)
  | .reset => none
  | .read _ => none
  | .write _ len _ => if writeLenOk len.toNat then none else some Status.errLen
  | .bitmod _ _ _ => none
  | .rdstat => none
  | .rxstat => none
  | .rts idx => if txIndexOk idx then none else some Status.errIndex
  | .rdrxb idx pt len =>
    if !rxIndexOk idx then some Status.errIndex
    else if readLenOk pt len.toNat then none else some Status.errLen
  | .setsid idx id =>
    if !txIndexOk idx then some Status.errIndex
    else if idFits .standard id then none else some Status.errId
  | .seteid idx id =>
    if !txIndexOk idx then some Status.errIndex
    else if idFits .extended id then none else some Status.errId
  | .txframe idx f =>
    if !txIndexOk idx then some Status.errIndex
    else if !dataLengthOk f.dataLength then some Status.errLen
    else if idFits f.frameType f.id then none else some Status.errId
  | .rxframe idx => if rxIndexOk idx then none else some Status.errIndex
  | .wReset => none
  | .wRead _ => none
  | .wWrite _ bytes => if writeLenOk bytes.length then none else some Status.errLen
  | .wBitmod _ _ _ => none
  | .wRdstat => none
  | .wRxstat => none
  | .wRts0 => none
  | .wRts1 => none
  | .wRts2 => none
  | .wRdrxb0Id k => if readLenOk .ident k then none else some Status.errLen
  | .wRdrxb0Data k => if readLenOk .data k then none else some Status.errLen
  | .wRdrxb1Id k => if readLenOk .ident k then none else some Status.errLen
  | .wRdrxb1Data k => if readLenOk .data k then none else some Status.errLen

end Sys2Proof.Machine
end

