-- ==== Sys2Proof/Machine/Operands.lean ====
section
/-! DEFINITION. Operand forms: register addresses from an index (00_scope.md R8), opcodes from an index
(30_encoding.md R95, R97), the wire formats of one bracket (R83), and bit fields of a byte (R10). -/

namespace Sys2Proof.Machine

open Sys2Proof.Config

/-- `A_X(n) = A_X(0) + n * STRIDE_X` (R8), at 8 bits (R12; log entry 22). -/
def familyAddr (f : Family) (n : Byte) : Byte := f.base + n * f.stride

/-- Bits hi..lo of a byte, at width w = hi - lo + 1 (R10). -/
def field (b : Byte) (lo w : Nat) : BitVec w := b.extractLsb' lo w

/-- `b[i] <- v`, the other bits kept (R10). -/
def setBit (b : Byte) (i : Nat) (v : Bool) : Byte :=
  if v then b ||| (1#8 <<< i) else b &&& ~~~(1#8 <<< i)

/-- `b[7:5] <- code`, the other bits kept (R10; the mode field of R31, R32). -/
def setModeField (b : Byte) (code : BitVec 3) : Byte := (code.setWidth 8 <<< 5) ||| (b &&& 0x1F)

/-- Bitwise merge under a mask (R72, R123): `(old & ~mask) | (value & mask)`. -/
def bitModify (old mask value : Byte) : Byte := (old &&& ~~~mask) ||| (value &&& mask)

/-- `RtsOp` (R95), by its three-row table. It is applied to indices 0..2 only: every caller has checked. -/
def rtsOp (idx : Byte) : WireOp :=
  match idx.toNat with
  | 0 => .rts0
  | 1 => .rts1
  | _ => .rts2

/-- `RdRxOp` (R97), by its four-row table. It is applied to indices 0..1 only: every caller has checked. -/
def rdRxOp (idx : Byte) (pt : StartPoint) : WireOp :=
  match idx.toNat, pt with
  | 0, .ident => .rdrxb0Id
  | 0, .data => .rdrxb0Data
  | _, .ident => .rdrxb1Id
  | _, .data => .rdrxb1Data

/-- Wire format W1 (R83): the opcode alone. -/
def fmtW1 (op : WireOp) : List Xfer := [.send op.byte]

/-- Wire format WR (R83): the opcode, then `k` bytes read. -/
def fmtWR (op : WireOp) (k : Nat) : List Xfer := .send op.byte :: List.replicate k .recv

/-- Wire format WAR (R83): 0x03, the address, one byte read. -/
def fmtWAR (addr : Byte) : List Xfer := [.send WireOp.read.byte, .send addr, .recv]

/-- Wire format WAW (R83): 0x02, the address, the data bytes. -/
def fmtWAW (addr : Byte) (bytes : List Byte) : List Xfer :=
  .send WireOp.write.byte :: .send addr :: bytes.map .send

/-- Wire format WAM (R83): 0x05, the address, the mask, the value. -/
def fmtWAM (addr mask val : Byte) : List Xfer :=
  [.send WireOp.bitmod.byte, .send addr, .send mask, .send val]

end Sys2Proof.Machine
end

