-- ==== Sys2Proof/Machine/Codec.lean ====
section
/-! DEFINITION. The pure functions of the Frame Codec (41_frame_codec.md R150 to R153; layouts
30_encoding.md R91 to R96, as corrected by 90_conflicts.md C1 to C4). -/

namespace Sys2Proof.Machine

open Sys2Proof.Config

/-- The identifier block ID0, ID1, ID2, ID3, in ascending address order (R54). -/
structure IdBlock where
  id0 : Byte
  id1 : Byte
  id2 : Byte
  id3 : Byte
  deriving DecidableEq, Repr

/-- The four bytes in the order they cross the transport (R54). -/
def IdBlock.toList (b : IdBlock) : List Byte := [b.id0, b.id1, b.id2, b.id3]

/-- `PackStd` (R91, R150): `(id[10:3], byte(id[2:0] << 5), 0x00, 0x00)`. -/
def packStd (id : StdId) : IdBlock where
  id0 := id.extractLsb' 3 8
  id1 := (id.extractLsb' 0 3).setWidth 8 <<< 5
  id2 := 0x00
  id3 := 0x00

/-- `PackExt` (R93, R151): `(id[28:21], byte((id[20:18] << 5) | 0x08 | id[17:16]), id[15:8], id[7:0])`; 0x08 is the
extended-ID-enable bit. -/
def packExt (id : ExtId) : IdBlock where
  id0 := id.extractLsb' 21 8
  id1 := ((id.extractLsb' 18 3).setWidth 8 <<< 5) ||| 0x08 ||| (id.extractLsb' 16 2).setWidth 8
  id2 := id.extractLsb' 8 8
  id3 := id.extractLsb' 0 8

/-- An identifier that fits its frame type (the data model's invariant, R154), which the packing functions are "never
applied outside" (R150, R151). -/
inductive Ident where
  | standard (id : StdId)
  | extended (id : ExtId)
  deriving DecidableEq, Repr

/-- The four bytes of an identifier (R150, R151). -/
def Ident.pack : Ident → IdBlock
  | .standard id => packStd id
  | .extended id => packExt id

/-- The packing TXFRAME chooses on `F.frameType` (R157), on the checked operand. -/
def packFrameId (ty : FrameType) (id : IdOperand) : IdBlock :=
  match ty with
  | .standard => packStd (id.setWidth 11)
  | .extended => packExt (id.setWidth 29)

/-- The 11-bit field `ID0 ++ ID1[7:5]` (R96): the whole of a Standard identifier, the top of an Extended one. -/
def stdField (b : IdBlock) : StdId := (b.id0.setWidth 11 <<< 3) ||| (field b.id1 5 3).setWidth 11

/-- `UnpackId` (R96, R152), total: ID1 bit 3 selects the type; a Standard identifier is zero-extended to the
29 bits of `SF.id`. -/
def unpackId (b : IdBlock) : FrameType × ExtId :=
  if b.id1.getLsbD 3 then
    (.extended,
      ((stdField b).setWidth 29 <<< 18) ||| ((field b.id1 0 2).setWidth 29 <<< 16) |||
        (b.id2.setWidth 29 <<< 8) ||| b.id3.setWidth 29)
  else
    (.standard, (stdField b).setWidth 29)

/-- `DlcByte` (R94, R153): the length in bits 3..0; bit 6 set for a remote frame, whose length bits depend on
`REMOTE_DLC`. -/
def dlcByte (mode : RemoteDlc) (isRemote : Bool) (dataLength : Byte) : Byte :=
  if isRemote then
    match mode with
    | .length => 0x40 ||| (field dataLength 0 4).setWidth 8
    | .zero => 0x40
  else
    (field dataLength 0 4).setWidth 8

end Sys2Proof.Machine
end

