-- ==== Sys2Proof/Machine/Memory.lean ====
section
/-! DEFINITION. The controller's register space as the reference responder holds it (20_memory.md R50, R70):
256 byte registers as a canonical list of cells. -/

namespace Sys2Proof.Machine

/-- What a register that is not listed reads as: R70, "all 0x00". -/
def Memory.unlisted : Byte := 0x00

/-- One byte of the register space. -/
def Memory.read : List Host.Cell → Nat → Byte
  | [], _ => Memory.unlisted
  | (k, v) :: rest, a => if k = a then v else Memory.read rest a

/-- Store one byte, keeping the canonical form: storing what an unlisted register reads as removes the cell. -/
def Memory.write : List Host.Cell → Nat → Byte → List Host.Cell
  | [], a, v => if v = Memory.unlisted then [] else [(a, v)]
  | (k, w) :: rest, a, v =>
    if a < k then
      if v = Memory.unlisted then (k, w) :: rest else (a, v) :: (k, w) :: rest
    else if a = k then
      if v = Memory.unlisted then rest else (a, v) :: rest
    else
      (k, w) :: Memory.write rest a v

/-- Canonical from address `lo` on: addresses strictly rising, below 256, no cell equal to the unlisted value. -/
def Memory.wfFrom : Nat → List Host.Cell → Bool
  | _, [] => true
  | lo, (k, v) :: rest =>
    decide (lo ≤ k) && decide (k < 256) && decide (v ≠ Memory.unlisted) && Memory.wfFrom (k + 1) rest

/-- The canonical form of the register space. -/
def Memory.wf (m : List Host.Cell) : Bool := Memory.wfFrom 0 m

end Sys2Proof.Machine
end

