-- ==== Sys2Proof/Machine/Mock.lean ====
section
/-! DEFINITION. The reference responder MOCK (20_memory.md R70 to R76): a simulator stand-in for the
controller, not a specification of the chip. -/

namespace Sys2Proof.Machine

open Sys2Proof.Config

/-- `REG[a]` (R70). -/
def Mock.get (m : Mock) (a : Byte) : Byte := Memory.read m.reg a.toNat

/-- `REG[a] <- v` (R70). -/
def Mock.set (m : Mock) (a v : Byte) : Mock := { m with reg := Memory.write m.reg a.toNat v }

/-- The mode echo of R72: after a store to `A_CANCTRL` the mode request is copied to the mode field at once. -/
def Mock.echoMode (p : Params) (a : Byte) (m : Mock) : Mock :=
  if a = p.map.canctrl then
    m.set p.map.canstat (setModeField (m.get p.map.canstat) (field (m.get p.map.canctrl) 5 3))
  else m

/-- Bit-modify (R72). -/
def Mock.bitModify (p : Params) (t : Byte) (m : Mock) : Mock :=
  (m.set m.bma (Machine.bitModify (m.get m.bma) m.bmm t)).echoMode p m.bma

/-- Request-to-send for a transmit buffer (R73). -/
def Mock.requestToSend (p : Params) (n : Byte) (m : Mock) : Mock :=
  let a := familyAddr p.map.txbCtrl n
  m.set a (setBit (m.get a) 3 true)

/-- The controller reset (R74). -/
def Mock.resetRegs (p : Params) (m : Mock) : Mock :=
  let z : Mock := { m with reg := [] }
  let s := z.set p.map.canstat (setModeField (z.get p.map.canstat) p.modeCode.configuration)
  s.set p.map.canctrl (setModeField (s.get p.map.canctrl) p.modeCode.configuration)

/-- The status bytes (R75): the two receive flags for 0xA0, zero for 0xB0. -/
def Mock.statusByte (p : Params) (m : Mock) : Byte :=
  if m.ins = WireOp.rdstat.byte then
    let f := m.get p.map.canintf
    setBit (setBit 0 p.rxIfBit0 (f.getLsbD p.rxIfBit0)) p.rxIfBit1 (f.getLsbD p.rxIfBit1)
  else 0x00

/-- The first byte of a bracket (R71, phase `Opcode`). -/
def Mock.opcode (p : Params) (op : WireOp) (m : Mock) : Mock :=
  match op with
  | .reset => { m.resetRegs p with ph := .done }
  | .read => { m with ph := .addr }
  | .write => { m with ph := .addr }
  | .bitmod => { m with ph := .addr }
  | .rdstat => { m with ph := .stat }
  | .rxstat => { m with ph := .stat }
  | .rts0 => { m.requestToSend p 0 with ph := .done }
  | .rts1 => { m.requestToSend p 1 with ph := .done }
  | .rts2 => { m.requestToSend p 2 with ph := .done }
  | .rdrxb0Id => { m with ptr := familyAddr p.map.rxbSidh 0, ph := .rdData }
  | .rdrxb0Data => { m with ptr := familyAddr p.map.rxbSidh 0 + 5, ph := .rdData }
  | .rdrxb1Id => { m with ptr := familyAddr p.map.rxbSidh 1, ph := .rdData }
  | .rdrxb1Data => { m with ptr := familyAddr p.map.rxbSidh 1 + 5, ph := .rdData }

/-- The phase after an event that begins or ends a bracket; a MOCK that has refused stays stopped (R71). -/
def Phase.toward (next ph : Phase) : Phase := if ph = .refused then .refused else next

/-- The event `SEL` (R71). -/
def Mock.sel (m : Mock) : Mock := { m with ph := Phase.toward .opcode m.ph }

/-- The event `DES` (R71). -/
def Mock.des (m : Mock) : Mock := { m with ph := Phase.toward .idle m.ph }

/-- The event `X(t, r)` (R71), by phase: the answer `r` and the next state. The block exchanges nothing while
deselected, and R71 gives that no answer: in phase `Idle`, as on an unlisted first byte, MOCK refuses
(log entry 19). -/
def Mock.xchg (p : Params) (t : Byte) (m : Mock) : Byte × Mock :=
  match m.ph with
  | .opcode =>
    match WireOp.ofByte? t with
    | some op => (0x00, Mock.opcode p op { m with ins := t })
    | none => (0x00, { m with ins := t, ph := .refused })
  | .addr =>
    if m.ins = WireOp.bitmod.byte then (0x00, { m with bma := t, ph := .bmMask })
    else if m.ins = WireOp.read.byte then (0x00, { m with ptr := t, ph := .rdData })
    else (0x00, { m with ptr := t, ph := .wrData })
  | .rdData => (m.get m.ptr, { m with ptr := m.ptr + 1 })
  | .wrData => (0x00, { (m.set m.ptr t).echoMode p m.ptr with ptr := m.ptr + 1 })
  | .bmMask => (0x00, { m with bmm := t, ph := .bmVal })
  | .bmVal => (0x00, { m.bitModify p t with ph := .done })
  | .stat => (m.statusByte p, m)
  | .done => (0x00, m)
  | .idle => (0x00, { m with ph := .refused })
  | .refused => (0x00, m)

/-- Store bytes at ascending addresses (R58). -/
def Mock.setBlock : Byte → List Byte → Mock → Mock
  | _, [], m => m
  | a, v :: vs, m => Mock.setBlock (a + 1) vs (m.set a v)

/-- `len` bytes from ascending addresses (R58). -/
def Mock.getBlock (m : Mock) (a : Byte) (len : Nat) : List Byte :=
  (List.range len).map fun k => m.get (a + BitVec.ofNat 8 k)

/-- `Deliver(n, m)` (R76), an action of the environment between operations. -/
def Mock.deliver (p : Params) (n : Fin 3) (b : Fin 2) (m : Mock) : Mock :=
  let txn : Byte := BitVec.ofNat 8 n
  let rxn : Byte := BitVec.ofNat 8 b
  let flag := if b = 0 then p.rxIfBit0 else p.rxIfBit1
  let m1 := Mock.setBlock (familyAddr p.map.rxbSidh rxn) (m.getBlock (familyAddr p.map.txbSidh txn) 13) m
  let ctrl := familyAddr p.map.rxbCtrl rxn
  let m2 := m1.set ctrl
    (setBit (m1.get ctrl) p.rxRtrBit ((m1.get (familyAddr p.map.txbDlc txn)).getLsbD 6))
  let m3 := m2.set p.map.canintf (setBit (m2.get p.map.canintf) flag true)
  let req := familyAddr p.map.txbCtrl txn
  m3.set req (setBit (m3.get req) 3 false)

end Sys2Proof.Machine
end

