-- ==== Sys2Proof/Machine/Ops.lean ====
section
/-! DEFINITION. The named operations every meaning is made of: the three transport events (00_scope.md R13),
a bracket, completion, the rejection (60_exceptions.md R210, the block's only exception), the write of the
scratch frame, and the block's reset (70_reset_and_hazards.md R240, R242). -/

namespace Sys2Proof.Machine

open Sys2Proof.Config

/-- The environment's answer to a sent byte: MOCK's (R71), or the oracle's, an answer fixed in advance if there
is one and a free value otherwise (R13, U5; log entry 5). -/
def State.answer (t : Byte) (s : State) : Byte × State :=
  match s.env with
  | .mock =>
    let r := Mock.xchg s.params t s.mock
    (r.1, { s with mock := r.2 })
  | .oracle =>
    match s.answers with
    | r :: rs => (r, { s with answers := rs })
    | [] => (oracleByte s.fresh, { s with fresh := s.fresh + 1 })

/-- `Select()` (R13, R28). -/
def State.select (s : State) : State :=
  { s with
    cs := .selected
    trace := s.trace ++ [.sel]
    mock := match s.env with
      | .mock => s.mock.sel
      | .oracle => s.mock }

/-- `Deselect()` (R13, R28). -/
def State.deselect (s : State) : State :=
  { s with
    cs := .deselected
    trace := s.trace ++ [.des]
    mock := match s.env with
      | .mock => s.mock.des
      | .oracle => s.mock }

/-- `r <- Xchg(t)` (R13). -/
def State.xchg (t : Byte) (s : State) : Byte × State :=
  let a := s.answer t
  (a.1, { a.2 with trace := a.2.trace ++ [.x t a.1] })

/-- The exchanges of a bracket in order: the bytes received in read positions, and the state (R83, R88). -/
def exchanges : List Xfer → State → List Byte × State
  | [], s => ([], s)
  | .send t :: rest, s => exchanges rest (s.xchg t).2
  | .recv :: rest, s =>
    let a := s.xchg s.params.dummyTx
    let r := exchanges rest a.2
    (a.1 :: r.1, r.2)

/-- A bracket: `Select()`, its exchanges, `Deselect()` (R13). -/
def State.bracket (xs : List Xfer) (s : State) : List Byte × State :=
  let r := exchanges xs s.select
  (r.1, r.2.deselect)

/-- Completion (R22, R26, R29): `STATUS` is written, the result port presents the operation's result, the block
is idle. `SEQ` and the received bytes then have no value: 0 and none (DESIGN CHOICE, log entry 8). -/
def State.complete (code : BitVec 3) (res : Result) (s : State) : State :=
  { s with status := code, result := res, cur := none, seq := 0, rx := [] }

/-- The rejection (R210, R221): no event, `SF` unchanged, `STATUS <- code`, nothing else presented, and the block
is idle. It saves nothing, and there is no return from it (R222): the next operation is accepted as always. -/
def State.reject (code : BitVec 3) (s : State) : State := s.complete code .none

/-- The one result byte `RES` of a bracket that read one byte (R22, R121, R124, R125). -/
def resByte (rs : List Byte) : Result := .byte (rs.getD 0 0)

/-- No result beyond `STATUS` (R22). -/
def resNone (_ : List Byte) : Result := .none

/-- The shape of every primitive operation that is not rejected (R128): exactly one bracket, then `STATUS <- OK`. -/
def State.primitive (xs : List Xfer) (res : List Byte → Result) (s : State) : State :=
  let r := s.bracket xs
  r.2.complete Status.ok (res r.1)

/-- Eight free payload bytes, the n-th drawn first (R159). -/
def unspecifiedData (n : Nat) : Vector Byte 8 :=
  #v[unspecifiedByte n, unspecifiedByte (n + 1), unspecifiedByte (n + 2), unspecifiedByte (n + 3),
     unspecifiedByte (n + 4), unspecifiedByte (n + 5), unspecifiedByte (n + 6), unspecifiedByte (n + 7)]

/-- The frame RXFRAME decodes (R158) from the remote flag and the bytes of its second bracket: identifier block,
then data-length byte and eight payload bytes unless remote. `n` counts the free values drawn so far. -/
def decodeFrame (rem : Bool) (bs : List Byte) (n : Nat) : ScratchFrame :=
  let u := unpackId ⟨bs.getD 0 0, bs.getD 1 0, bs.getD 2 0, bs.getD 3 0⟩
  { valid := true
    frameType := u.1
    isRemote := rem
    id := u.2
    dataLength := if rem then 0 else field (bs.getD 4 0) 0 4
    data :=
      if rem then unspecifiedData n
      else #v[bs.getD 5 0, bs.getD 6 0, bs.getD 7 0, bs.getD 8 0,
              bs.getD 9 0, bs.getD 10 0, bs.getD 11 0, bs.getD 12 0] }

/-- `SF <- …` (R24, R158): all fields at once; a remote decode draws eight free bytes (R159). -/
def State.loadScratch (rem : Bool) (bs : List Byte) (s : State) : State :=
  { s with
    sf := decodeFrame rem bs s.fresh
    fresh := if rem then s.fresh + 8 else s.fresh }

/-- The block's own reset (R240, R242): the operation in progress, if any, is abandoned; if the chip is selected
the transport sees a `Deselect()`-equivalent; then the block's state is that of R41. What stands outside the block
(parameters, MOCK, the oracle, the trace, the host's moves) keeps its value (log entry 16). -/
def State.blockReset (s : State) : State :=
  let d := match s.cs with
    | .selected => s.deselect
    | .deselected => s
  { d with
    cs := .deselected, status := Status.ok, sf := ScratchFrame.reset
    cur := none, seq := 0, rx := [], result := .none }

end Sys2Proof.Machine
end

