-- ==== Sys2Proof/Machine/FrameCodec.lean ====
section
/-! DEFINITION. The Frame Codec's operations (41_frame_codec.md R155 to R158). -/

namespace Sys2Proof.Machine

open Host (Outcome)
open Sys2Proof.Config

/-- The identifier bracket (R155, R156, and bracket 1 of R157): four bytes from `A_TXBSIDH(IDX)` on. -/
def idBracket (p : Params) (idx : Byte) (b : IdBlock) : List Xfer :=
  fmtWAW (familyAddr p.map.txbSidh idx) b.toList

/-- Bracket 2 of TXFRAME (R157): the data-length byte, then the first `F.dataLength` payload bytes unless
the frame is remote. -/
def dataBracket (p : Params) (idx : Byte) (f : CanFrame) : List Xfer :=
  fmtWAW (familyAddr p.map.txbDlc idx)
    (dlcByte p.remoteDlc f.isRemote f.dataLength ::
      (if f.isRemote then [] else f.data.toList.take f.dataLength.toNat))

/-- Bracket 1 of RXFRAME (R158): the buffer's control byte. -/
def controlBracket (p : Params) (idx : Byte) : List Xfer := fmtWAR (familyAddr p.map.rxbCtrl idx)

/-- The remote flag in the received control byte (R37, R158). -/
def remoteFlag (p : Params) (rs : List Byte) : Bool := (rs.getD 0 0).getLsbD p.rxRtrBit

/-- Bracket 2 of RXFRAME (R158): the fast-path read from the identifier start, four bytes for a remote frame
and thirteen otherwise. -/
def frameBracket (idx : Byte) (rem : Bool) : List Xfer :=
  fmtWR (rdRxOp idx .ident) (if rem then 4 else 13)

/-- SETSID (R155). -/
def execSetsid (idx : Byte) (id : IdOperand) (s : State) : Outcome State Fault Refusal :=
  if !txIndexOk idx then .next (s.reject Status.errIndex)
  else if idFits .standard id then
    .next (s.primitive (idBracket s.params idx (packStd (id.setWidth 11))) resNone)
  else .next (s.reject Status.errId)

/-- SETEID (R156). -/
def execSeteid (idx : Byte) (id : IdOperand) (s : State) : Outcome State Fault Refusal :=
  if !txIndexOk idx then .next (s.reject Status.errIndex)
  else if idFits .extended id then
    .next (s.primitive (idBracket s.params idx (packExt (id.setWidth 29))) resNone)
  else .next (s.reject Status.errId)

/-- TXFRAME (R157): all checks, in the order index, length, identifier (R220), precede the first bracket;
then the identifier block, the data length with the payload, and the request to send. -/
def execTxframe (idx : Byte) (f : CanFrame) (s : State) : Outcome State Fault Refusal :=
  if !txIndexOk idx then .next (s.reject Status.errIndex)
  else if !dataLengthOk f.dataLength then .next (s.reject Status.errLen)
  else if idFits f.frameType f.id then
    let s1 := (s.bracket (idBracket s.params idx (packFrameId f.frameType f.id))).2
    let s2 := (s1.bracket (dataBracket s.params idx f)).2
    .next (s2.primitive (fmtW1 (rtsOp idx)) resNone)
  else .next (s.reject Status.errId)

/-- RXFRAME (R158): the control byte, then the frame; `SF` is written whole at completion (R24) and a copy of it
is presented (R22). -/
def execRxframe (idx : Byte) (s : State) : Outcome State Fault Refusal :=
  if rxIndexOk idx then
    let c := s.bracket (controlBracket s.params idx)
    let rem := remoteFlag s.params c.1
    let r := c.2.bracket (frameBracket idx rem)
    let t := r.2.loadScratch rem r.1
    .next (t.complete Status.ok (.frame t.sf))
  else .next (s.reject Status.errIndex)

end Sys2Proof.Machine
end

