-- ==== Sys2Proof/Machine/RegisterProtocol.lean ====
section
/-! DEFINITION. The Register Protocol Engine's operations at the command level (40_register_protocol.md R120
to R127). A meaning describes an operation the idle block has accepted (10_state.md R20; log entry 15). -/

namespace Sys2Proof.Machine

open Host (Outcome)

/-- RESET (R120, R241): the one byte 0xC0; nothing of the block but `STATUS` changes. -/
def execReset (s : State) : Outcome State Fault Refusal :=
  .next (s.primitive (fmtW1 .reset) resNone)

/-- READ (R121). -/
def execRead (addr : Byte) (s : State) : Outcome State Fault Refusal :=
  .next (s.primitive (fmtWAR addr) resByte)

/-- WRITE (R122): `LEN` outside 1..13 is rejected; only `WBUF[0..LEN-1]` is sent. -/
def execWrite (addr len : Byte) (wbuf : Vector Byte 13) (s : State) : Outcome State Fault Refusal :=
  if writeLenOk len.toNat then
    .next (s.primitive (fmtWAW addr (wbuf.toList.take len.toNat)) resNone)
  else .next (s.reject Status.errLen)

/-- BITMOD (R123): the read, the merge and the write happen at the controller (R67). -/
def execBitmod (addr mask val : Byte) (s : State) : Outcome State Fault Refusal :=
  .next (s.primitive (fmtWAM addr mask val) resNone)

/-- RDSTAT (R124). -/
def execRdstat (s : State) : Outcome State Fault Refusal :=
  .next (s.primitive (fmtWR .rdstat 1) resByte)

/-- RXSTAT (R125). -/
def execRxstat (s : State) : Outcome State Fault Refusal :=
  .next (s.primitive (fmtWR .rxstat 1) resByte)

/-- RTS (R126). -/
def execRts (idx : Byte) (s : State) : Outcome State Fault Refusal :=
  if txIndexOk idx then .next (s.primitive (fmtW1 (rtsOp idx)) resNone)
  else .next (s.reject Status.errIndex)

/-- RDRXB (R127): the index is checked before the length (R220). -/
def execRdrxb (idx : Byte) (pt : StartPoint) (len : Byte) (s : State) : Outcome State Fault Refusal :=
  if !rxIndexOk idx then .next (s.reject Status.errIndex)
  else if readLenOk pt len.toNat then
    .next (s.primitive (fmtWR (rdRxOp idx pt) len.toNat) .block)
  else .next (s.reject Status.errLen)

end Sys2Proof.Machine
end

