-- ==== Sys2Proof/Machine/Wire.lean ====
section
/-! DEFINITION. The wire-level instructions (30_encoding.md R82, R83). Each is one bracket, and "every primitive
operation, when not rejected, issues exactly one bracket" (40_register_protocol.md R128): running a wire-level
instruction is running the primitive operation the table's row names by its rule, in its wire form (DEDUCED,
log entry 12). The length checks are those of the primitive operation (R214); the decoder lets no other length by. -/

namespace Sys2Proof.Machine

open Host (Outcome)

/-- A bracket of `k` bytes read by the fast path, checked as R127 says. -/
def State.readBuffer (op : WireOp) (pt : StartPoint) (k : Nat) (s : State) : State :=
  if readLenOk pt k then s.primitive (fmtWR op k) .block else s.reject Status.errLen

/-- Wire RESET, 0xC0 (R82, R120). -/
def execWReset (s : State) : Outcome State Fault Refusal :=
  .next (s.primitive (fmtW1 .reset) resNone)

/-- Wire READ, 0x03 (R82, R121). -/
def execWRead (addr : Byte) (s : State) : Outcome State Fault Refusal :=
  .next (s.primitive (fmtWAR addr) resByte)

/-- Wire WRITE, 0x02 (R82, R122). -/
def execWWrite (addr : Byte) (bytes : List Byte) (s : State) : Outcome State Fault Refusal :=
  if writeLenOk bytes.length then .next (s.primitive (fmtWAW addr bytes) resNone)
  else .next (s.reject Status.errLen)

/-- Wire BITMOD, 0x05 (R82, R123). -/
def execWBitmod (addr mask val : Byte) (s : State) : Outcome State Fault Refusal :=
  .next (s.primitive (fmtWAM addr mask val) resNone)

/-- Wire RDSTAT, 0xA0 (R82, R124). -/
def execWRdstat (s : State) : Outcome State Fault Refusal :=
  .next (s.primitive (fmtWR .rdstat 1) resByte)

/-- Wire RXSTAT, 0xB0 (R82, R125). -/
def execWRxstat (s : State) : Outcome State Fault Refusal :=
  .next (s.primitive (fmtWR .rxstat 1) resByte)

/-- Wire RTS.0, 0x81 (R82, R126). -/
def execWRts0 (s : State) : Outcome State Fault Refusal :=
  .next (s.primitive (fmtW1 .rts0) resNone)

/-- Wire RTS.1, 0x82 (R82, R126). -/
def execWRts1 (s : State) : Outcome State Fault Refusal :=
  .next (s.primitive (fmtW1 .rts1) resNone)

/-- Wire RTS.2, 0x84 (R82, R126). -/
def execWRts2 (s : State) : Outcome State Fault Refusal :=
  .next (s.primitive (fmtW1 .rts2) resNone)

/-- Wire RDRXB.0.ID, 0x90 (R82, R127). -/
def execWRdrxb0Id (k : Nat) (s : State) : Outcome State Fault Refusal :=
  .next (s.readBuffer .rdrxb0Id .ident k)

/-- Wire RDRXB.0.DATA, 0x92 (R82, R127). -/
def execWRdrxb0Data (k : Nat) (s : State) : Outcome State Fault Refusal :=
  .next (s.readBuffer .rdrxb0Data .data k)

/-- Wire RDRXB.1.ID, 0x94 (R82, R127). -/
def execWRdrxb1Id (k : Nat) (s : State) : Outcome State Fault Refusal :=
  .next (s.readBuffer .rdrxb1Id .ident k)

/-- Wire RDRXB.1.DATA, 0x96 (R82, R127). -/
def execWRdrxb1Data (k : Nat) (s : State) : Outcome State Fault Refusal :=
  .next (s.readBuffer .rdrxb1Data .data k)

end Sys2Proof.Machine
end

