-- ==== Sys2Proof/Machine/Dispatch.lean ====
section
/-! DEFINITION. One arm per constructor of Instr. -/

namespace Sys2Proof.Machine

def exec (i : Instr) (s : State) : Host.Outcome State Fault Refusal :=
  match i with
  | .reset => Sys2Proof.Machine.execReset s
  | .read addr => Sys2Proof.Machine.execRead addr s
  | .write addr len wbuf => Sys2Proof.Machine.execWrite addr len wbuf s
  | .bitmod addr mask val => Sys2Proof.Machine.execBitmod addr mask val s
  | .rdstat => Sys2Proof.Machine.execRdstat s
  | .rxstat => Sys2Proof.Machine.execRxstat s
  | .rts idx => Sys2Proof.Machine.execRts idx s
  | .rdrxb idx pt len => Sys2Proof.Machine.execRdrxb idx pt len s
  | .setsid idx id => Sys2Proof.Machine.execSetsid idx id s
  | .seteid idx id => Sys2Proof.Machine.execSeteid idx id s
  | .txframe idx f => Sys2Proof.Machine.execTxframe idx f s
  | .rxframe idx => Sys2Proof.Machine.execRxframe idx s
  | .wReset => Sys2Proof.Machine.execWReset s
  | .wRead addr => Sys2Proof.Machine.execWRead addr s
  | .wWrite addr bytes => Sys2Proof.Machine.execWWrite addr bytes s
  | .wBitmod addr mask val => Sys2Proof.Machine.execWBitmod addr mask val s
  | .wRdstat => Sys2Proof.Machine.execWRdstat s
  | .wRxstat => Sys2Proof.Machine.execWRxstat s
  | .wRts0 => Sys2Proof.Machine.execWRts0 s
  | .wRts1 => Sys2Proof.Machine.execWRts1 s
  | .wRts2 => Sys2Proof.Machine.execWRts2 s
  | .wRdrxb0Id k => Sys2Proof.Machine.execWRdrxb0Id k s
  | .wRdrxb0Data k => Sys2Proof.Machine.execWRdrxb0Data k s
  | .wRdrxb1Id k => Sys2Proof.Machine.execWRdrxb1Id k s
  | .wRdrxb1Data k => Sys2Proof.Machine.execWRdrxb1Data k s

end Sys2Proof.Machine
end

