-- ==== Sys2Proof/Machine/Sequencer.lean ====
section
/-! DEFINITION. The block one transport event at a time (10_state.md R25, R29): the latched operation `CUR`, the
index `SEQ` of its next event and the bytes received so far. Running an operation so, or in one step by exec,
are the two granularities of decision D4. -/

namespace Sys2Proof.Machine

open Sys2Proof.Config

/-- The brackets an accepted operation issues, in order (R83, and the pseudocode of R120 to R127, R155 to R158).
Only RXFRAME's second bracket depends on a received byte, the control byte of its first (R25, R103). -/
def brackets (p : Params) (rx : List Byte) : Instr → List (List Xfer)
  | .reset => [fmtW1 .reset]
  | .read addr => [fmtWAR addr]
  | .write addr len wbuf => [fmtWAW addr (wbuf.toList.take len.toNat)]
  | .bitmod addr mask val => [fmtWAM addr mask val]
  | .rdstat => [fmtWR .rdstat 1]
  | .rxstat => [fmtWR .rxstat 1]
  | .rts idx => [fmtW1 (rtsOp idx)]
  | .rdrxb idx pt len => [fmtWR (rdRxOp idx pt) len.toNat]
  | .setsid idx id => [idBracket p idx (packStd (id.setWidth 11))]
  | .seteid idx id => [idBracket p idx (packExt (id.setWidth 29))]
  | .txframe idx f =>
    [idBracket p idx (packFrameId f.frameType f.id), dataBracket p idx f, fmtW1 (rtsOp idx)]
  | .rxframe idx => [controlBracket p idx, frameBracket idx (remoteFlag p rx)]
  | .wReset => [fmtW1 .reset]
  | .wRead addr => [fmtWAR addr]
  | .wWrite addr bytes => [fmtWAW addr bytes]
  | .wBitmod addr mask val => [fmtWAM addr mask val]
  | .wRdstat => [fmtWR .rdstat 1]
  | .wRxstat => [fmtWR .rxstat 1]
  | .wRts0 => [fmtW1 .rts0]
  | .wRts1 => [fmtW1 .rts1]
  | .wRts2 => [fmtW1 .rts2]
  | .wRdrxb0Id k => [fmtWR .rdrxb0Id k]
  | .wRdrxb0Data k => [fmtWR .rdrxb0Data k]
  | .wRdrxb1Id k => [fmtWR .rdrxb1Id k]
  | .wRdrxb1Data k => [fmtWR .rdrxb1Data k]

/-- The events of one bracket (R13). -/
def bracketActs (xs : List Xfer) : List Act := .sel :: xs.map .xfer ++ [.des]

/-- All events of an operation, in order (R29). -/
def plan (p : Params) (rx : List Byte) (i : Instr) : List Act :=
  ((brackets p rx i).map bracketActs).flatten

/-- One transport event of the block; a byte received in a read position joins the received bytes (R29, R88). -/
def State.act (a : Act) (s : State) : State :=
  match a with
  | .sel => s.select
  | .des => s.deselect
  | .xfer (.send t) => (s.xchg t).2
  | .xfer .recv =>
    let r := s.xchg s.params.dummyTx
    { r.2 with rx := r.2.rx ++ [r.1] }

/-- Completion of an operation after its last event (R22, R25): its result is made of the received bytes. -/
def State.finish (i : Instr) (s : State) : State :=
  match i with
  | .read _ => s.complete Status.ok (resByte s.rx)
  | .rdstat => s.complete Status.ok (resByte s.rx)
  | .rxstat => s.complete Status.ok (resByte s.rx)
  | .rdrxb _ _ _ => s.complete Status.ok (.block s.rx)
  | .rxframe _ =>
    let t := s.loadScratch (remoteFlag s.params s.rx) (s.rx.drop 1)
    t.complete Status.ok (.frame t.sf)
  | .wRead _ => s.complete Status.ok (resByte s.rx)
  | .wRdstat => s.complete Status.ok (resByte s.rx)
  | .wRxstat => s.complete Status.ok (resByte s.rx)
  | .wRdrxb0Id _ => s.complete Status.ok (.block s.rx)
  | .wRdrxb0Data _ => s.complete Status.ok (.block s.rx)
  | .wRdrxb1Id _ => s.complete Status.ok (.block s.rx)
  | .wRdrxb1Data _ => s.complete Status.ok (.block s.rx)
  | .reset => s.complete Status.ok .none
  | .write _ _ _ => s.complete Status.ok .none
  | .bitmod _ _ _ => s.complete Status.ok .none
  | .rts _ => s.complete Status.ok .none
  | .setsid _ _ => s.complete Status.ok .none
  | .seteid _ _ => s.complete Status.ok .none
  | .txframe _ _ => s.complete Status.ok .none
  | .wReset => s.complete Status.ok .none
  | .wWrite _ _ => s.complete Status.ok .none
  | .wBitmod _ _ _ => s.complete Status.ok .none
  | .wRts0 => s.complete Status.ok .none
  | .wRts1 => s.complete Status.ok .none
  | .wRts2 => s.complete Status.ok .none

/-- Acceptance of an operation by the idle block (R20, R21, R29): it is rejected at once (R210), or latched with
`SEQ` = 0. -/
def State.accept (i : Instr) (s : State) : State :=
  match Instr.rejection i with
  | some code => s.reject code
  | none => { s with cur := some i, seq := 0, rx := [] }

/-- One event of the operation in progress: "`SEQ` advances by one per transport event, starts at 0 when an
operation is accepted and the operation completes after its last event" (R25). -/
def State.tick (i : Instr) (s : State) : State :=
  match (plan s.params s.rx i)[s.seq]? with
  | none => s.finish i
  | some a =>
    let t := { s.act a with seq := s.seq + 1 }
    if t.seq < (plan t.params t.rx i).length then t else t.finish i

end Sys2Proof.Machine
end

