-- ==== Sys2Proof/Machine/HostPort.lean ====
section
/-! DEFINITION. What one step does with the host's next move (10_state.md R20, R22, R24; 60_exceptions.md R210,
R211; 70_reset_and_hazards.md R240, R242), and how a word is placed where the next step takes its instruction. -/

namespace Sys2Proof.Machine

open Host (Outcome)

/-- What a presented operation the decoder refuses leads to: a reserved `OP` is rejected with `ERR_OP` (R101, R211);
a bracket that is none of R82's forms is refused (R99, U9). -/
def State.undecoded (e : DecodeError) (s : State) : Outcome State Fault Refusal :=
  match e with
  | .reservedOp _ => .next (s.reject Status.errOp)
  | .emptyBracket => .refused (.wireBracket e)
  | .unknownOpcode _ => .refused (.wireBracket e)
  | .badLength _ => .refused (.wireBracket e)

/-- The host issues an operation and the whole of it runs in this step (R20, D4). -/
def State.issue (w : Presented) (s : State) : Outcome State Fault Refusal :=
  match decode w with
  | .ok i => exec i s
  | .error e => s.undecoded e

/-- The host issues an operation and this step only starts it (R20, R29). -/
def State.start (w : Presented) (s : State) : Outcome State Fault Refusal :=
  match decode w with
  | .ok i => .next (s.accept i)
  | .error e => s.undecoded e

/-- The host reads `SF` through the result port; a fault while `SF.valid` = 0 (R24, R210, U4; log entry 20). -/
def State.readFrame (s : State) : Outcome State Fault Refusal :=
  if s.sf.valid then .next { s with result := .frame s.sf } else .fault .scratchFrameInvalid

/-- `Deliver(n, m)` between operations (R76). -/
def State.deliver (n : Fin 3) (m : Fin 2) (s : State) : State :=
  { s with mock := s.mock.deliver s.params n m }

/-- A step of the idle block: the host's next move, or nothing when it has none (R240, "nothing runs after reset
until the host issues an operation"). -/
def State.idleStep (s : State) : Outcome State Fault Refusal :=
  match s.moves with
  | [] => .next s
  | m :: rest =>
    let t := { s with moves := rest }
    match m with
    | .issue w => t.issue w
    | .start w => t.start w
    | .reset => .next t.blockReset
    | .readFrame => t.readFrame
    | .deliver n b => .next (t.deliver n b)
    | .wait => .next t

/-- A step of the busy block (R20: "the port is not ready and the host has no move"): the next event of the
operation, unless the block's reset is asserted (R242). A `wait` passes with the event; any other move stays for the
idle block. -/
def State.busyStep (i : Instr) (s : State) : Outcome State Fault Refusal :=
  match s.moves with
  | .reset :: rest => .next { s with moves := rest }.blockReset
  | .wait :: rest => .next ({ s with moves := rest }.tick i)
  | _ => .next (s.tick i)

/-- MOCK has met a first byte it refuses (R71). -/
def State.mockStopped (s : State) : Bool :=
  match s.env with
  | .mock => decide (s.mock.ph = .refused)
  | .oracle => false

/-- A step of the machine. -/
def State.next (s : State) : Outcome State Fault Refusal :=
  if s.mockStopped then .refused .mockRefuses
  else
    match s.cur with
    | some i => s.busyStep i
    | none => s.idleStep

/-- The machine with an operation presented to the idle block, to run in the very next step: the block is idle,
MOCK is between brackets, and the host's next move is to issue the operation (log entry 11). -/
def State.present (w : Presented) (s : State) : State :=
  { s with cur := none, moves := .issue w :: s.moves, mock := { s.mock with ph := .idle } }

end Sys2Proof.Machine
end

