-- ==== Sys2Proof/Machine/Step.lean ====
section
/-! DEFINITION. One step of the machine, and the host's way to place an opcode-table word. -/

namespace Sys2Proof.Machine

/-- One step: an operation or one event of it, or a move of the host (10_state.md R20, R29). -/
def step (s : State) : Host.Outcome State Fault Refusal := s.next

/-- The state with an opcode-table word presented as the host's next move (log entry 11): the block has no memory
to fetch from (R25, R68), so the word is placed on the command port, or, at the wire level, as the bytes of the
next bracket. -/
def State.withFetchWord (s : State) (nbits w : Nat) : State := s.present (tableWord nbits w)

end Sys2Proof.Machine
end

