-- ==== Sys2Proof/Machine/HostSequences.lean ====
section
/-! DEFINITION. The host-level sequences (42_host_sequences.md R180 to R195; 41_frame_codec.md R162;
70_reset_and_hazards.md R246): pseudo-operations, each a sequence of the block's operations with host computation
between them. They add no state to the block and change no operation (R180). The expansions the spec marks derived
are DEDUCED (log entry 24). -/

namespace Sys2Proof.Machine

open Sys2Proof.Config

/-- The host issues an operation and goes on from the state it leaves. -/
def State.run (i : Instr) (s : State) : State :=
  match exec i s with
  | .next t => t
  | .fault _ => s
  | .refused _ => s

/-- The byte the result port presents (R22). -/
def State.res (s : State) : Byte :=
  match s.result with
  | .byte v => v
  | .none => 0
  | .block _ => 0
  | .frame _ => 0

/-- A buffer index, or a payload length, as the operand the block takes (R21). -/
def idxByte {n : Nat} (i : Fin n) : Byte := BitVec.ofNat 8 i.val

/-- The mode field (R182): `READ A_CANSTAT -> v`, then `v[7:5]`. -/
def readModeField (s : State) : BitVec 3 × State :=
  let t := s.run (.read s.params.map.canstat)
  (field t.res 5 3, t)

/-- `getMode()` (R182): the mode field, mapped back through `MODE_CODE`; a field that is no mode's code has no result
(U17). -/
def getMode (s : State) : Option Mode × State :=
  let r := readModeField s
  (s.params.modeCode.mode? r.1, r.2)

/-- The polling loop of `requestMode` (R183) with at most `bound` polls (`MODE_WAIT_BOUND`): whether the mode was
confirmed, and the state. That it gives up after `bound` polls is the model's choice (DESIGN CHOICE, log entry 24). -/
def pollMode (target : Mode) : Nat → State → Bool × State
  | 0, s => (false, s)
  | n + 1, s =>
    let r := readModeField s
    if r.1 = s.params.modeCode.code target then (true, r.2) else pollMode target n r.2

/-- The mode request of R183: a bit-modify of `CANCTRL[7:5]`, the other bits preserved. -/
def modeRequest (p : Params) (target : Mode) : Instr :=
  .bitmod p.map.canctrl 0xE0 (setModeField 0 (p.modeCode.code target))

/-- `requestMode(target)` (R183), bounded. -/
def requestMode (target : Mode) (bound : Nat) (s : State) : Bool × State :=
  pollMode target bound (s.run (modeRequest s.params target))

/-- `isTransmitBufferFree(idx)` (R184): "true iff the transmit-request bit is clear". -/
def isTransmitBufferFree (idx : Fin 3) (s : State) : Bool × State :=
  let t := s.run (.read (familyAddr s.params.map.txbCtrl (idxByte idx)))
  (!t.res.getLsbD 3, t)

/-- The fail-fast rule (R185): the body runs only on a free buffer; `false` is the Not-ready result. -/
def failFast (idx : Fin 3) (body : State → State) (s : State) : Bool × State :=
  let r := isTransmitBufferFree idx s
  if r.1 then (true, body r.2) else (false, r.2)

/-- `setStandardId` (R162, R185). -/
def setStandardId (idx : Fin 3) (id : IdOperand) (s : State) : Bool × State :=
  failFast idx (·.run (.setsid (idxByte idx) id)) s

/-- `setExtendedId` (R162, R185). -/
def setExtendedId (idx : Fin 3) (id : IdOperand) (s : State) : Bool × State :=
  failFast idx (·.run (.seteid (idxByte idx) id)) s

/-- `transmitWithId` (R162, R185): TXFRAME of a data frame. -/
def transmitWithId (idx : Fin 3) (f : CanFrame) (s : State) : Bool × State :=
  failFast idx (·.run (.txframe (idxByte idx) { f with isRemote := false })) s

/-- `remoteTransmit` (R162, R185): TXFRAME of a remote frame. -/
def remoteTransmit (idx : Fin 3) (f : CanFrame) (s : State) : Bool × State :=
  failFast idx (·.run (.txframe (idxByte idx) { f with isRemote := true })) s

/-- The WRITE of `transmit` (R162): the data-length byte and the first `len` payload bytes. `DlcByte` is defined for
lengths 0..8 (R153), and a larger one cannot be given (DESIGN CHOICE, log entry 26). -/
def transmitWrite (p : Params) (idx : Fin 3) (len : Fin 9) (data : Vector Byte 8) : Instr :=
  let d := fun (k : Nat) => data.toList.getD k 0
  .write (familyAddr p.map.txbDlc (idxByte idx)) (idxByte len + 1)
    #v[dlcByte p.remoteDlc false (idxByte len), d 0, d 1, d 2, d 3, d 4, d 5, d 6, d 7, 0, 0, 0, 0]

/-- `transmit` (R162, R185): the payload with the identifier already in the buffer, then RTS. -/
def transmit (idx : Fin 3) (len : Fin 9) (data : Vector Byte 8) (s : State) : Bool × State :=
  failFast idx (fun t => (t.run (transmitWrite t.params idx len data)).run (.rts (idxByte idx))) s

/-- The bit-modify of `setPriority(idx, p)`, p in 0..3 (R191); a larger p is a caller error (U22) and cannot be
given (log entry 26). -/
def priorityWrite (p : Params) (idx : Fin 3) (prio : BitVec 2) : Instr :=
  .bitmod (familyAddr p.map.txbCtrl (idxByte idx)) 0x03 (prio.setWidth 8)

/-- `setPriority(idx, p)` (R185, R191). -/
def setPriority (idx : Fin 3) (prio : BitVec 2) (s : State) : Bool × State :=
  failFast idx (fun t => t.run (priorityWrite t.params idx prio)) s

/-- The three-way mapping of `getTransmitError` (R186): arbitration-lost bit 5, error bit 4; both set is open
(D35) and is the parameter `bothErrors`. -/
def transmitErrorOf (p : Params) (v : Byte) : TransmitError :=
  match v.getLsbD 5, v.getLsbD 4 with
  | true, true => p.bothErrors
  | true, false => .lostArbitration
  | false, true => .otherError
  | false, false => .noError

/-- `getTransmitError(idx)` (R186). -/
def getTransmitError (idx : Fin 3) (s : State) : TransmitError × State :=
  let t := s.run (.read (familyAddr s.params.map.txbCtrl (idxByte idx)))
  (transmitErrorOf s.params t.res, t)

/-- `abortTransmit(idx)` (R190): clears the request bit unconditionally. -/
def abortTransmit (idx : Fin 3) (s : State) : State :=
  s.run (.bitmod (familyAddr s.params.map.txbCtrl (idxByte idx)) 0x08 0x00)

/-- One bit of a register, by READ (R121). -/
def readBit (addr : Byte) (b : Fin 8) (s : State) : Bool × State :=
  let t := s.run (.read addr)
  (t.res.getLsbD b, t)

/-- A flag is pending "when its bit in `CANINTF` reads 1" (R218). -/
def isFlagPending (b : Fin 8) (s : State) : Bool × State := readBit s.params.map.canintf b s

/-- A flag is enabled "by its bit in `CANINTE`" (R218). That 1 means enabled is the model's choice (DESIGN CHOICE, log
entry 24): R218 gives "no semantics for enable beyond the register's name". -/
def isFlagEnabled (b : Fin 8) (s : State) : Bool × State := readBit s.params.map.caninte b s

/-- A flag is cleared "by the host writing 0 to the bit" (R218), with a bit-modify (R187, R188). -/
def clearFlag (b : Fin 8) (s : State) : State :=
  s.run (.bitmod s.params.map.canintf (setBit 0 b true) 0x00)

/-- The host enables or disables a flag by its bit in `CANINTE` (R217, R218), writing 1 to enable it (DESIGN CHOICE, log
entry 24: R218 does not say which value enables); that a bit-modify is the operation used is DEDUCED (log entry 24), as
for the flags. -/
def setFlagEnabled (b : Fin 8) (on : Bool) (s : State) : State :=
  s.run (.bitmod s.params.map.caninte (setBit 0 b true) (setBit 0 b on))

/-- The receive flag of a buffer (R188). -/
def rxIfBit (p : Params) (idx : Fin 2) : Fin 8 := if idx = 0 then p.rxIfBit0 else p.rxIfBit1

/-- Whether a receive buffer holds a frame (R187): its flag is pending. That the "status query" is a READ of `CANINTF`,
not RDSTAT, is the model's choice (DESIGN CHOICE, log entry 24): R187 offers both and says that the source does not
state which (N5). -/
def isReceiveBufferFull (idx : Fin 2) (s : State) : Bool × State := isFlagPending (rxIfBit s.params idx) s

/-- The release of a receive buffer (R187): its flag is cleared. -/
def releaseReceiveBuffer (idx : Fin 2) (s : State) : State := clearFlag (rxIfBit s.params idx) s

/-- Whether MERRF is pending (R188, R218). -/
def isMerrfPending (s : State) : Bool × State := isFlagPending s.params.merrfBit s

/-- The MERRF clearing call (R188). -/
def clearMerrf (s : State) : State := clearFlag s.params.merrfBit s

/-- WRITE of one register, `LEN` = 1 (R122). -/
def writeOne (addr v : Byte) : Instr := .write addr 1 #v[v, 0, 0, 0, 0, 0, 0, 0, 0, 0, 0, 0, 0]

/-- WRITE of an identifier block, `LEN` = 4 (R192). -/
def writeBlock (addr : Byte) (b : IdBlock) : Instr :=
  .write addr 4 #v[b.id0, b.id1, b.id2, b.id3, 0, 0, 0, 0, 0, 0, 0, 0, 0]

/-- `requestMode(Configuration)`, the writes, `requestMode(target)`; the host gives up when Configuration is not
confirmed within the bound (DESIGN CHOICE, log entry 24). -/
def configureThen (target : Mode) (bound : Nat) (body : State → State) (s : State) : Bool × State :=
  let r := requestMode .configuration bound s
  if r.1 then requestMode target bound (body r.2) else r

/-- The Configuration bracket (R194), which ends in Normal. -/
def inConfiguration (bound : Nat) (body : State → State) (s : State) : Bool × State :=
  configureThen .normal bound body s

/-- The triple of a clock (kHz) and data rate (kbps) (R189): the one printed row; the 125 kbps triple of the clock; the
table's row where there is one; and otherwise "falls back to the 125 kbps triple for that clock". -/
def bitTiming (clockKHz rateKbps : Nat) : Timing :=
  if clockKHz = 8000 ∧ rateKbps = 500 then ⟨0x00, 0x90, 0x02⟩
  else if rateKbps = 125 then timing125 clockKHz
  else (timingRow clockKHz rateKbps).getD (timing125 clockKHz)

/-- The three writes of `configureBitTiming` (R189). -/
def writeTiming (t : Timing) (s : State) : State :=
  ((s.run (writeOne s.params.map.cnf1 t.cnf1)).run (writeOne s.params.map.cnf2 t.cnf2)).run
    (writeOne s.params.map.cnf3 t.cnf3)

/-- `configureBitTiming` (R189) in its Configuration bracket (R194). -/
def configureBitTiming (clockKHz rateKbps bound : Nat) (s : State) : Bool × State :=
  inConfiguration bound (writeTiming (bitTiming clockKHz rateKbps)) s

/-- A mask or a filter with the identifier to be written to it (R38, R192). An identifier that does not fit its frame
type, of which R192 does not speak, cannot be given (DESIGN CHOICE, log entry 26). -/
inductive FilterWrite where
  | mask (k : Fin 2) (id : Ident)
  | filter (k : Fin 6) (id : Ident)
  deriving DecidableEq, Repr

/-- The WRITE of a mask or filter (R192): the four identifier bytes, packed as the codec packs them. -/
def FilterWrite.instr (p : Params) : FilterWrite → Instr
  | .mask k id => writeBlock p.map.rxmSidh[k] id.pack
  | .filter k id => writeBlock p.map.rxfSidh[k] id.pack

/-- Some mask and filter writes, in order. -/
def writeFilters : List FilterWrite → State → State
  | [], s => s
  | w :: ws, s => writeFilters ws (s.run (w.instr s.params))

/-- `setMask(k, type, id)` (R192), in its Configuration bracket. The type of `id` holds the frame type and no wider
identifier (DESIGN CHOICE, log entry 26). -/
def setMask (k : Fin 2) (id : Ident) (bound : Nat) (s : State) : Bool × State :=
  inConfiguration bound (writeFilters [.mask k id]) s

/-- `setFilter(k, type, id)` (R192), as setMask. -/
def setFilter (k : Fin 6) (id : Ident) (bound : Nat) (s : State) : Bool × State :=
  inConfiguration bound (writeFilters [.filter k id]) s

/-- The modes the boot order can end in (R246 step 4): "`requestMode(Normal)` (or Loopback, ListenOnly)". -/
inductive RunMode where
  | normal
  | loopback
  | listenOnly
  deriving DecidableEq, Repr

/-- The operating mode of R181 that a boot ends in. -/
def RunMode.mode : RunMode → Mode
  | .normal => .normal
  | .loopback => .loopback
  | .listenOnly => .listenOnly

/-- The boot order R246 forces: (2) RESET (then the host's delay `T_RESET_US`, R249, which is no step); (3) in
Configuration mode the bit timing and any mask and filter writes; (4) the mode to run in. -/
def boot (clockKHz rateKbps : Nat) (filters : List FilterWrite) (target : RunMode) (bound : Nat) (s : State) :
    Bool × State :=
  configureThen target.mode bound
    (fun t => writeFilters filters (writeTiming (bitTiming clockKHz rateKbps) t)) (s.run .reset)

end Sys2Proof.Machine
end

