-- ==== Sys2Proof/Safety.lean ====
section
/-! DEFINITION. What counts as a safe state of the machine, in the terms the statements use: a legal trace
(10_state.md R28), a legal `STATUS` (R27), a legal scratch frame (R23), canonical registers (20_memory.md R70),
and the in-flight state that fits the latched operation (R29). -/

namespace Sys2Proof.Machine

open Sys2Proof.Config

/-- Chip select after one more event, when the event is legal (R28): `Select()` only when deselected, `Xchg` and
`Deselect()` only when selected. -/
def csStep : Option ChipSelect → Event → Option ChipSelect
  | some .deselected, .sel => some .selected
  | some .selected, .x _ _ => some .selected
  | some .selected, .des => some .deselected
  | _, _ => none

/-- Chip select after a trace that began deselected; `none` if some event of it was illegal. -/
def csAfter (tr : List Event) : Option ChipSelect := tr.foldl csStep (some .deselected)

/-- Chip select after one more planned event, when it is legal. -/
def actStep : Option ChipSelect → Act → Option ChipSelect
  | some .deselected, .sel => some .selected
  | some .selected, .xfer _ => some .selected
  | some .selected, .des => some .deselected
  | _, _ => none

/-- Chip select after the planned events. -/
def actsAfter (as : List Act) : Option ChipSelect := as.foldl actStep (some .deselected)

/-- How many planned events receive a byte that is used (R29). -/
def recvCount (as : List Act) : Nat := (as.filter fun a => a == .xfer .recv).length

/-- The trace is legal and chip select is where it leaves it (R28). -/
def State.traceOk (s : State) : Prop := csAfter s.trace = some s.cs

/-- In the idle block chip select is `Deselected` (R28) and nothing is in flight (R29). In the busy block the
latched operation was accepted, its next event exists, and chip select and the received bytes are those its first
`SEQ` events leave. -/
def State.flightOk (s : State) : Prop :=
  match s.cur with
  | none => s.cs = .deselected ∧ s.seq = 0 ∧ s.rx = []
  | some i =>
    Instr.rejection i = none ∧
    s.seq < (plan s.params s.rx i).length ∧
    actsAfter ((plan s.params s.rx i).take s.seq) = some s.cs ∧
    s.rx.length = recvCount ((plan s.params s.rx i).take s.seq)

/-- `STATUS` holds one of the codes 0..4; 5..7 are never produced (R27). -/
def State.statusOk (s : State) : Prop := s.status.toNat ≤ 4

/-- The scratch frame (R23): a Standard identifier occupies bits 10..0 alone, and a remote frame has length 0. -/
def ScratchFrame.ok (f : ScratchFrame) : Prop :=
  (f.frameType = .standard → f.id.toNat ≤ 0x7FF) ∧ (f.isRemote = true → f.dataLength = 0)

/-- The registers MOCK holds are in canonical form (R70). -/
def State.memOk (s : State) : Prop := Memory.wf s.mock.reg = true

/-- The invariant of the machine. -/
structure State.Inv (s : State) : Prop where
  traceOk  : s.traceOk
  flightOk : s.flightOk
  statusOk : s.statusOk
  sfOk     : s.sf.ok
  memOk    : s.memOk

/-- The events of one bracket, from the bytes sent and the bytes answered (R13, R14). -/
def bracketEvents (sent answers : List Byte) : List Event :=
  .sel :: List.zipWith .x sent answers ++ [.des]

/-- The answers in a trace, oldest first. -/
def answersOf : List Event → List Byte
  | [] => []
  | .x _ r :: rest => r :: answersOf rest
  | .sel :: rest => answersOf rest
  | .des :: rest => answersOf rest

/-- The bytes sent before the next `DES`, and the sent bytes of the brackets that begin after it. -/
def sentSplit : List Event → List Byte × List (List Byte)
  | [] => ([], [])
  | .x t _ :: rest => (t :: (sentSplit rest).1, (sentSplit rest).2)
  | .des :: rest => ([], (sentSplit rest).2)
  | .sel :: rest => ([], (sentSplit rest).1 :: (sentSplit rest).2)

/-- The brackets of a trace, each as the bytes it sends (R13, R14). -/
def sentBrackets (ev : List Event) : List (List Byte) := (sentSplit ev).2

/-- The first bytes of the brackets of a trace (R82, R99). -/
def firstBytes (ev : List Event) : List Byte := (sentBrackets ev).filterMap List.head?

/-- The register bytes a trace sends: those of its WRITE brackets, "opcode and address bytes left out" (R160). -/
def registerBytes (ev : List Event) : List Byte :=
  ((sentBrackets ev).filter fun b => b.head? == some 0x02).flatMap (·.drop 2)

/-- The brackets and the exchanges of a trace (R89). -/
def traceCounts (ev : List Event) : Nat × Nat := ((sentBrackets ev).length, (answersOf ev).length)

/-- The brackets and exchanges R89 gives an operation that is not rejected; `remote` is the flag RXFRAME received. -/
def expectedCounts (remote : Bool) : Instr → Nat × Nat
  | .reset => (1, 1)
  | .read _ => (1, 3)
  | .write _ len _ => (1, 2 + len.toNat)
  | .bitmod _ _ _ => (1, 4)
  | .rdstat => (1, 2)
  | .rxstat => (1, 2)
  | .rts _ => (1, 1)
  | .rdrxb _ _ len => (1, 1 + len.toNat)
  | .setsid _ _ => (1, 6)
  | .seteid _ _ => (1, 6)
  | .txframe _ f => (3, if f.isRemote then 10 else 10 + f.dataLength.toNat)
  | .rxframe _ => (2, if remote then 8 else 17)
  | .wReset => (1, 1)
  | .wRead _ => (1, 3)
  | .wWrite _ bytes => (1, 2 + bytes.length)
  | .wBitmod _ _ _ => (1, 4)
  | .wRdstat => (1, 2)
  | .wRxstat => (1, 2)
  | .wRts0 => (1, 1)
  | .wRts1 => (1, 1)
  | .wRts2 => (1, 1)
  | .wRdrxb0Id k => (1, 1 + k)
  | .wRdrxb0Data k => (1, 1 + k)
  | .wRdrxb1Id k => (1, 1 + k)
  | .wRdrxb1Data k => (1, 1 + k)

/-- Two presentations of the command port agree on `OP` and on every field the operation reads (R21, R84 to R87). -/
def portsAgree (p q : Port) : Prop :=
  p.op = q.op ∧
  match p.op.toNat with
  | 0x1 => p.addr = q.addr
  | 0x2 => p.addr = q.addr ∧ p.len = q.len ∧ p.wbuf.toList.take p.len.toNat = q.wbuf.toList.take p.len.toNat
  | 0x3 => p.addr = q.addr ∧ p.mask = q.mask ∧ p.val = q.val
  | 0x6 => p.idx = q.idx
  | 0x7 => p.idx = q.idx ∧ p.pt = q.pt ∧ p.len = q.len
  | 0x8 => p.idx = q.idx ∧ p.frame.id = q.frame.id
  | 0x9 => p.idx = q.idx ∧ p.frame.id = q.frame.id
  | 0xA =>
    p.idx = q.idx ∧ p.frame.frameType = q.frame.frameType ∧ p.frame.isRemote = q.frame.isRemote ∧
    p.frame.id = q.frame.id ∧ p.frame.dataLength = q.frame.dataLength ∧
    (p.frame.isRemote = false →
      p.frame.data.toList.take p.frame.dataLength.toNat = q.frame.data.toList.take p.frame.dataLength.toNat)
  | 0xB => p.idx = q.idx
  | _ => True

/-- The machine's next move is the host's: the block is idle and the responder has not stopped (R20, R71). -/
def State.ready (s : State) : Prop := s.cur = none ∧ s.mockStopped = false

/-- `t` is `s` after an operation that ran its brackets: it issued `ev`, presents `res`, completed with `OK` and left
the block idle and deselected; the environment (MOCK, the answers fixed in advance, the free values drawn) may be
anything, and every other part of the state is as in `s` (R14, R26, R29). -/
def State.Ran (s : State) (ev : List Event) (res : Result) (t : State) : Prop :=
  ∃ mock answers fresh,
    t = { s with
      cs := .deselected, status := 0, result := res, cur := none, seq := 0, rx := []
      trace := s.trace ++ ev, mock := mock, answers := answers, fresh := fresh }

/-- The state a rejection leaves (R210): the code in `STATUS`, nothing presented, the block idle, all else as it
was. -/
def State.rejectedWith (s : State) (code : BitVec 3) : State :=
  { s with status := code, result := .none, cur := none, seq := 0, rx := [] }

/-- The registers at ascending addresses (R58). -/
def addrRun (a : Byte) (n : Nat) : List Byte := (List.range n).map fun k => a + BitVec.ofNat 8 k

/-- MOCK's mode echo (R72): a store to `A_CANCTRL` also writes `A_CANSTAT`. -/
def withEcho (p : Params) (as : List Byte) : List Byte :=
  if p.map.canctrl ∈ as then p.map.canstat :: as else as

/-- The registers of MOCK an accepted operation may store to (R71 to R74), by the addresses its meaning sends. -/
def storeSet (p : Params) : Instr → List Byte
  | .reset => addrRun 0 256
  | .read _ => []
  | .write addr len _ => withEcho p (addrRun addr len.toNat)
  | .bitmod addr _ _ => withEcho p [addr]
  | .rdstat => []
  | .rxstat => []
  | .rts idx => [familyAddr p.map.txbCtrl idx]
  | .rdrxb _ _ _ => []
  | .setsid idx _ => withEcho p (addrRun (familyAddr p.map.txbSidh idx) 4)
  | .seteid idx _ => withEcho p (addrRun (familyAddr p.map.txbSidh idx) 4)
  | .txframe idx f =>
    withEcho p
      (addrRun (familyAddr p.map.txbSidh idx) 4 ++
        addrRun (familyAddr p.map.txbDlc idx) (1 + if f.isRemote then 0 else f.dataLength.toNat)) ++
      [familyAddr p.map.txbCtrl idx]
  | .rxframe _ => []
  | .wReset => addrRun 0 256
  | .wRead _ => []
  | .wWrite addr bytes => withEcho p (addrRun addr bytes.length)
  | .wBitmod addr _ _ => withEcho p [addr]
  | .wRdstat => []
  | .wRxstat => []
  | .wRts0 => [familyAddr p.map.txbCtrl 0]
  | .wRts1 => [familyAddr p.map.txbCtrl 1]
  | .wRts2 => [familyAddr p.map.txbCtrl 2]
  | .wRdrxb0Id _ => []
  | .wRdrxb0Data _ => []
  | .wRdrxb1Id _ => []
  | .wRdrxb1Data _ => []

end Sys2Proof.Machine
end

