-- ==== Sys2Proof/Certificates/Slice0/Obligations.lean ====
section
/-! DEFINITION. The statements for the provers, in the order of OBLIGATIONS.json. Each docstring names the rules of
spec/ it rests on. Events are written out: `bracketEvents sent answers` is `SEL`, the exchanges, `DES`. -/

open Sys2Proof Sys2Proof.Config Sys2Proof.Machine

/-! ## Encoding -/

/-- Decoding the encoding of a well-formed instruction gives it back, for every instruction of both levels and every
byte sent while reading (R81 to R88, R98). -/
def Obligations.DecodeOfEncodeIsIdentity : Prop :=
  ∀ (dummy : Byte) (i : Instr), i.wf = true → decode (encode dummy i) = .ok i

/-- A bracket that decodes is encoded, up to the bytes sent in read positions, by the instruction it decodes to: same
length, same first byte, and it decodes to the same instruction (R82, R83). -/
def Obligations.EncodeOfDecodedBracketAgrees : Prop :=
  ∀ (dummy : Byte) (bytes : List Byte) (i : Instr), decodeWire bytes = .ok i →
    ∃ bs, encode dummy i = .wire bs ∧ bs.length = bytes.length ∧ bs.head? = bytes.head? ∧ decodeWire bs = .ok i

/-- Whatever decodes is well-formed (R83, R98). -/
def Obligations.DecodedInstructionIsWellFormed : Prop :=
  ∀ (w : Presented) (i : Instr), decode w = .ok i → i.wf = true

/-- The thirteen first bytes (R82), written out from the table. -/
def Obligations.WireOpcodeBytesAreThoseListed : Prop :=
  WireOp.all.map WireOp.byte =
    [0xC0, 0x03, 0x02, 0x05, 0xA0, 0xB0, 0x81, 0x82, 0x84, 0x90, 0x92, 0x94, 0x96]

/-- A bracket whose first byte is none of the thirteen has no meaning: the decoder refuses it by name, and a step
that is to run it is refused (R98, R99, U9). -/
def Obligations.UnlistedFirstByteIsRefused : Prop :=
  ∀ (b : Byte) (rest : List Byte) (s : State) (ms : List Move),
    b ∉ [0xC0, 0x03, 0x02, 0x05, 0xA0, 0xB0, 0x81, 0x82, 0x84, 0x90, 0x92, 0x94, 0x96] →
    s.ready → s.moves = .issue (.wire (b :: rest)) :: ms →
    decodeWire (b :: rest) = .error (.unknownOpcode b) ∧
    step s = .refused (.wireBracket (.unknownOpcode b))

/-- `OP` 0xC..0xF, with any operands, is rejected with `ERR_OP`: no event, nothing else changed (R101, R211). -/
def Obligations.ReservedOperationIsRejected : Prop :=
  ∀ (p : Port) (s : State) (ms : List Move), 0xC ≤ p.op.toNat → s.ready →
    (s.moves = .issue (.command p) :: ms → step s = .next ({ s with moves := ms }.rejectedWith 1)) ∧
    (s.moves = .start (.command p) :: ms → step s = .next ({ s with moves := ms }.rejectedWith 1))

/-- Some words, written out from R81 and R82, decode to the instructions they stand for. -/
def Obligations.ListedWordsDecode : Prop :=
  decode (.wire [0xC0]) = .ok .wReset ∧
  decode (.wire [0x03, 0x0E, 0x00]) = .ok (.wRead 0x0E) ∧
  decode (.wire [0x02, 0x28, 0x02, 0x90, 0x00]) = .ok (.wWrite 0x28 [0x02, 0x90, 0x00]) ∧
  decode (.wire [0x05, 0x0F, 0xE0, 0x80]) = .ok (.wBitmod 0x0F 0xE0 0x80) ∧
  decode (.wire [0x84]) = .ok .wRts2 ∧
  decode (.wire [0x94, 0x00, 0x00, 0x00, 0x00]) = .ok (.wRdrxb1Id 4) ∧
  decode (.command { Port.ofOp 0x6 with idx := 2 }) = .ok (.rts 2) ∧
  decode (.command { Port.ofOp 0xB with idx := 1 }) = .ok (.rxframe 1) ∧
  decode (.wire [0x83]) = .error (.unknownOpcode 0x83)

/-- "Each operation reads only the operands its rule names; the others are ignored" (R21): two presentations of the
port that agree on the fields R84 to R87 name lead to the same outcome; so do `WBUF` beyond `LEN`, `F.data` beyond
`F.dataLength`, and all of `F.data` when remote (U19). -/
def Obligations.OperandsNotReadDoNotMatter : Prop :=
  ∀ (p q : Port) (s : State), portsAgree p q → s.issue (.command p) = s.issue (.command q)

/-! ## The Register Protocol Engine -/

/-- RESET sends the one byte 0xC0 and changes nothing of the block but `STATUS` (R120, R241). The clause on the
wire-level row is the model's (DEDUCED, log entry 12), which runs it as the operation. -/
def Obligations.ResetSendsOneByte : Prop :=
  ∀ s : State,
    (∃ r t, exec .reset s = .next t ∧ s.Ran (bracketEvents [0xC0] [r]) .none t) ∧
    (∃ r t, exec .wReset s = .next t ∧ s.Ran (bracketEvents [0xC0] [r]) .none t)

/-- READ is `OP` 0x1 with `ADDR`; it sends 0x03, the address and `DUMMY_TX`, and presents the third answer (R121), for
every address. The clause on the wire-level row is the model's (DEDUCED, log entry 12). -/
def Obligations.ReadPresentsThirdAnswer : Prop :=
  (∀ p : Port, p.op = 0x1 → decode (.command p) = .ok (.read p.addr)) ∧
  ∀ (a : Byte) (s : State),
    (∃ r0 r1 v t, exec (.read a) s = .next t ∧
      s.Ran (bracketEvents [0x03, a, s.params.dummyTx] [r0, r1, v]) (.byte v) t) ∧
    (∃ r0 r1 v t, exec (.wRead a) s = .next t ∧
      s.Ran (bracketEvents [0x03, a, s.params.dummyTx] [r0, r1, v]) (.byte v) t)

/-- WRITE sends 0x02, the address and the first `LEN` bytes for `LEN` in 1..13, and is rejected with `ERR_LEN`
otherwise (R122). The clauses on the wire-level row, which sends its own bytes and rejects the lengths the operation
rejects, are the model's (DEDUCED, log entry 12). -/
def Obligations.WriteSendsItsBytes : Prop :=
  ∀ (a len : Byte) (wbuf : Vector Byte 13) (bytes : List Byte) (s : State),
    (if 1 ≤ len.toNat ∧ len.toNat ≤ 13 then
      ∃ rs t, rs.length = 2 + len.toNat ∧ exec (.write a len wbuf) s = .next t ∧
        s.Ran (bracketEvents (0x02 :: a :: wbuf.toList.take len.toNat) rs) .none t
    else exec (.write a len wbuf) s = .next (s.rejectedWith 3)) ∧
    (if 1 ≤ bytes.length ∧ bytes.length ≤ 13 then
      ∃ rs t, rs.length = 2 + bytes.length ∧ exec (.wWrite a bytes) s = .next t ∧
        s.Ran (bracketEvents (0x02 :: a :: bytes) rs) .none t
    else exec (.wWrite a bytes) s = .next (s.rejectedWith 3))

/-- BITMOD sends 0x05, the address, the mask, the value; it reads nothing (R123). The clause on the wire-level row is
the model's (DEDUCED, log entry 12). -/
def Obligations.BitmodSendsMaskBeforeValue : Prop :=
  ∀ (a m v : Byte) (s : State),
    (∃ r0 r1 r2 r3 t, exec (.bitmod a m v) s = .next t ∧
      s.Ran (bracketEvents [0x05, a, m, v] [r0, r1, r2, r3]) .none t) ∧
    (∃ r0 r1 r2 r3 t, exec (.wBitmod a m v) s = .next t ∧
      s.Ran (bracketEvents [0x05, a, m, v] [r0, r1, r2, r3]) .none t)

/-- RDSTAT and RXSTAT, `OP` 0x4 and 0x5, send 0xA0 and 0xB0 and present the one byte read, uninterpreted (R124, R125).
The clauses on the wire-level rows are the model's (DEDUCED, log entry 12). -/
def Obligations.StatusReadsPresentOneByte : Prop :=
  (∀ p : Port, p.op = 0x4 → decode (.command p) = .ok .rdstat) ∧
  (∀ p : Port, p.op = 0x5 → decode (.command p) = .ok .rxstat) ∧
  ∀ s : State,
    (∃ r v t, exec .rdstat s = .next t ∧
      s.Ran (bracketEvents [0xA0, s.params.dummyTx] [r, v]) (.byte v) t) ∧
    (∃ r v t, exec .rxstat s = .next t ∧
      s.Ran (bracketEvents [0xB0, s.params.dummyTx] [r, v]) (.byte v) t) ∧
    (∃ r v t, exec .wRdstat s = .next t ∧
      s.Ran (bracketEvents [0xA0, s.params.dummyTx] [r, v]) (.byte v) t) ∧
    (∃ r v t, exec .wRxstat s = .next t ∧
      s.Ran (bracketEvents [0xB0, s.params.dummyTx] [r, v]) (.byte v) t)

/-- RTS sends 0x81, 0x82, 0x84 for transmit buffers 0, 1, 2 and is rejected with `ERR_INDEX` beyond (R126, R95). The
clauses on the wire-level rows are the model's (DEDUCED, log entry 12). -/
def Obligations.RtsSendsItsBuffersOpcode : Prop :=
  ∀ s : State,
    (∃ r t, exec (.rts 0) s = .next t ∧ s.Ran (bracketEvents [0x81] [r]) .none t) ∧
    (∃ r t, exec (.rts 1) s = .next t ∧ s.Ran (bracketEvents [0x82] [r]) .none t) ∧
    (∃ r t, exec (.rts 2) s = .next t ∧ s.Ran (bracketEvents [0x84] [r]) .none t) ∧
    (∀ idx : Byte, 2 < idx.toNat → exec (.rts idx) s = .next (s.rejectedWith 2)) ∧
    (∃ r t, exec .wRts0 s = .next t ∧ s.Ran (bracketEvents [0x81] [r]) .none t) ∧
    (∃ r t, exec .wRts1 s = .next t ∧ s.Ran (bracketEvents [0x82] [r]) .none t) ∧
    (∃ r t, exec .wRts2 s = .next t ∧ s.Ran (bracketEvents [0x84] [r]) .none t)

/-- RDRXB sends 0x90, 0x92, 0x94 or 0x96 by buffer and start point, reads `LEN` bytes and presents them in order, for
1..13 bytes from the identifier start and 1..8 from the data start (R127, R97). The clauses on the wire-level rows, which do
likewise, are the model's (DEDUCED, log entry 12). -/
def Obligations.FastReadPresentsTheBytesRead : Prop :=
  ∀ (s : State) (len : Byte) (k : Nat),
    (1 ≤ len.toNat ∧ len.toNat ≤ 13 →
      (∃ r rs t, rs.length = len.toNat ∧ exec (.rdrxb 0 .ident len) s = .next t ∧
        s.Ran (bracketEvents (0x90 :: List.replicate len.toNat s.params.dummyTx) (r :: rs)) (.block rs) t) ∧
      (∃ r rs t, rs.length = len.toNat ∧ exec (.rdrxb 1 .ident len) s = .next t ∧
        s.Ran (bracketEvents (0x94 :: List.replicate len.toNat s.params.dummyTx) (r :: rs)) (.block rs) t)) ∧
    (1 ≤ len.toNat ∧ len.toNat ≤ 8 →
      (∃ r rs t, rs.length = len.toNat ∧ exec (.rdrxb 0 .data len) s = .next t ∧
        s.Ran (bracketEvents (0x92 :: List.replicate len.toNat s.params.dummyTx) (r :: rs)) (.block rs) t) ∧
      (∃ r rs t, rs.length = len.toNat ∧ exec (.rdrxb 1 .data len) s = .next t ∧
        s.Ran (bracketEvents (0x96 :: List.replicate len.toNat s.params.dummyTx) (r :: rs)) (.block rs) t)) ∧
    (1 ≤ k ∧ k ≤ 13 →
      (∃ r rs t, rs.length = k ∧ exec (.wRdrxb0Id k) s = .next t ∧
        s.Ran (bracketEvents (0x90 :: List.replicate k s.params.dummyTx) (r :: rs)) (.block rs) t) ∧
      (∃ r rs t, rs.length = k ∧ exec (.wRdrxb1Id k) s = .next t ∧
        s.Ran (bracketEvents (0x94 :: List.replicate k s.params.dummyTx) (r :: rs)) (.block rs) t)) ∧
    (1 ≤ k ∧ k ≤ 8 →
      (∃ r rs t, rs.length = k ∧ exec (.wRdrxb0Data k) s = .next t ∧
        s.Ran (bracketEvents (0x92 :: List.replicate k s.params.dummyTx) (r :: rs)) (.block rs) t) ∧
      (∃ r rs t, rs.length = k ∧ exec (.wRdrxb1Data k) s = .next t ∧
        s.Ran (bracketEvents (0x96 :: List.replicate k s.params.dummyTx) (r :: rs)) (.block rs) t))

/-! ## The Frame Codec -/

/-- SETSID, `OP` 0x8 with `IDX` and `F.id`, sends one WRITE bracket from `A_TXBSIDH(IDX)`: `id[10:3]`, then `id[2:0]` shifted left by 5, then two zero
bytes; index, then identifier, are checked first (R155, R91). -/
def Obligations.SetsidWritesStandardIdentifier : Prop :=
  (∀ p : Port, p.op = 0x8 → decode (.command p) = .ok (.setsid p.idx p.frame.id)) ∧
  ∀ (idx : Byte) (id : IdOperand) (s : State),
    if 2 < idx.toNat then exec (.setsid idx id) s = .next (s.rejectedWith 2)
    else if 0x7FF < id.toNat then exec (.setsid idx id) s = .next (s.rejectedWith 4)
    else ∃ rs t, rs.length = 6 ∧ exec (.setsid idx id) s = .next t ∧
      s.Ran (bracketEvents
        [0x02, s.params.map.txbSidh.base + idx * s.params.map.txbSidh.stride,
         (id >>> 3).setWidth 8, id.setWidth 8 <<< 5, 0x00, 0x00] rs) .none t

/-- SETEID, `OP` 0x9 with `IDX` and `F.id`, sends one WRITE bracket from `A_TXBSIDH(IDX)`: `id[28:21]`; `id[20:18]` in bits 7..5, the
extended-ID-enable bit 3, `id[17:16]` in bits 1..0; `id[15:8]`; `id[7:0]` (R156, R93). -/
def Obligations.SeteidWritesExtendedIdentifier : Prop :=
  (∀ p : Port, p.op = 0x9 → decode (.command p) = .ok (.seteid p.idx p.frame.id)) ∧
  ∀ (idx : Byte) (id : IdOperand) (s : State),
    if 2 < idx.toNat then exec (.seteid idx id) s = .next (s.rejectedWith 2)
    else if 0x1FFFFFFF < id.toNat then exec (.seteid idx id) s = .next (s.rejectedWith 4)
    else ∃ rs t, rs.length = 6 ∧ exec (.seteid idx id) s = .next t ∧
      s.Ran (bracketEvents
        [0x02, s.params.map.txbSidh.base + idx * s.params.map.txbSidh.stride,
         (id >>> 21).setWidth 8,
         ((id >>> 18).setWidth 8 <<< 5) ||| 0x08 ||| ((id >>> 16).setWidth 8 &&& 0x03),
         (id >>> 8).setWidth 8, id.setWidth 8] rs) .none t

/-- TXFRAME, `OP` 0xA with `IDX` and `F`, runs three brackets (identifier block; data-length byte with the payload unless remote; request to send)
when the index, the length and the identifier pass, and is rejected by the first that does not (R157). -/
def Obligations.TxframeRunsThreeBrackets : Prop :=
  (∀ p : Port, p.op = 0xA → decode (.command p) = .ok (.txframe p.idx p.frame)) ∧
  ∀ (idx : Byte) (f : CanFrame) (s : State),
    if 2 < idx.toNat then exec (.txframe idx f) s = .next (s.rejectedWith 2)
    else if 8 < f.dataLength.toNat then exec (.txframe idx f) s = .next (s.rejectedWith 3)
    else if (if f.frameType = .standard then 0x7FF else 0x1FFFFFFF) < f.id.toNat then
      exec (.txframe idx f) s = .next (s.rejectedWith 4)
    else ∃ sent2 rs1 rs2 r t, rs1.length = 6 ∧ rs2.length = sent2.length ∧
      sent2 =
        0x02 :: (s.params.map.txbDlc.base + idx * s.params.map.txbDlc.stride) ::
          dlcByte s.params.remoteDlc f.isRemote f.dataLength ::
            (if f.isRemote then [] else f.data.toList.take f.dataLength.toNat) ∧
      exec (.txframe idx f) s = .next t ∧
      s.Ran
        (bracketEvents
            (0x02 :: (s.params.map.txbSidh.base + idx * s.params.map.txbSidh.stride) ::
              (if f.frameType = .standard then packStd (f.id.setWidth 11)
               else packExt (f.id.setWidth 29)).toList) rs1 ++
          bracketEvents sent2 rs2 ++
          bracketEvents [if idx = 0 then 0x81 else if idx = 1 then 0x82 else 0x84] [r]) .none t

/-- RXFRAME, `OP` 0xB with `IDX`, reads the control byte, then the identifier block and, unless its remote flag was set, the data-length byte
and eight payload bytes; `SF` becomes the decoded frame, a copy is presented, and nothing else of the block changes
(R158). After a remote decode `SF.data` is whatever the model drew (R159). -/
def Obligations.RxframeDecodesIntoScratchFrame : Prop :=
  (∀ p : Port, p.op = 0xB → decode (.command p) = .ok (.rxframe p.idx)) ∧
  ∀ (idx : Byte) (s : State),
    if 1 < idx.toNat then exec (.rxframe idx) s = .next (s.rejectedWith 2)
    else ∃ r0 r1 c q b0 b1 b2 b3 t sf ev, exec (.rxframe idx) s = .next t ∧
      { s with sf := sf }.Ran ev (.frame sf) t ∧
      sf.valid = true ∧ sf.isRemote = c.getLsbD s.params.rxRtrBit ∧
      (sf.frameType, sf.id) = unpackId ⟨b0, b1, b2, b3⟩ ∧
      if c.getLsbD s.params.rxRtrBit then
        sf.dataLength = 0 ∧
        ev =
          bracketEvents
            [0x03, s.params.map.rxbCtrl.base + idx * s.params.map.rxbCtrl.stride, s.params.dummyTx]
            [r0, r1, c] ++
          bracketEvents ((if idx = 0 then 0x90 else 0x94) :: List.replicate 4 s.params.dummyTx)
            [q, b0, b1, b2, b3]
      else
        ∃ l : Byte, sf.dataLength = l.setWidth 4 ∧
        ev =
          bracketEvents
            [0x03, s.params.map.rxbCtrl.base + idx * s.params.map.rxbCtrl.stride, s.params.dummyTx]
            [r0, r1, c] ++
          bracketEvents ((if idx = 0 then 0x90 else 0x94) :: List.replicate 13 s.params.dummyTx)
            (q :: b0 :: b1 :: b2 :: b3 :: l :: sf.data.toList)

/-! ## Rejections and STATUS -/

/-- A rejected operation issues no event, leaves `SF` and everything else as it was, presents nothing, writes the
failing check's code and leaves the block idle (R210, R221, R222). -/
def Obligations.RejectionChangesOnlyStatus : Prop :=
  ∀ (i : Instr) (code : BitVec 3) (s : State), Instr.rejection i = some code →
    exec i s = .next (s.rejectedWith code) ∧ (code = 2 ∨ code = 3 ∨ code = 4)

/-- The codes each operation can end with (R216): no operation ends with a code that R216 does not list for it.
R216 lists operations; the clauses on the wire-level rows are the model's (DEDUCED, log entry 12). -/
def Obligations.EachOperationHasOnlyItsCodes : Prop :=
  ∀ (s t : State),
    (∀ i, i ∈ [Instr.reset, .rdstat, .rxstat, .wReset, .wRdstat, .wRxstat, .wRts0, .wRts1, .wRts2] →
      exec i s = .next t → t.status = 0) ∧
    (∀ a, exec (.read a) s = .next t ∨ exec (.wRead a) s = .next t → t.status = 0) ∧
    (∀ a m v, exec (.bitmod a m v) s = .next t ∨ exec (.wBitmod a m v) s = .next t → t.status = 0) ∧
    (∀ a len wbuf, exec (.write a len wbuf) s = .next t → t.status = 0 ∨ t.status = 3) ∧
    (∀ idx, exec (.rts idx) s = .next t → t.status = 0 ∨ t.status = 2) ∧
    (∀ idx pt len, exec (.rdrxb idx pt len) s = .next t → t.status = 0 ∨ t.status = 2 ∨ t.status = 3) ∧
    (∀ idx id, exec (.setsid idx id) s = .next t → t.status = 0 ∨ t.status = 2 ∨ t.status = 4) ∧
    (∀ idx id, exec (.seteid idx id) s = .next t → t.status = 0 ∨ t.status = 2 ∨ t.status = 4) ∧
    (∀ idx f, exec (.txframe idx f) s = .next t →
      t.status = 0 ∨ t.status = 2 ∨ t.status = 3 ∨ t.status = 4) ∧
    (∀ idx, exec (.rxframe idx) s = .next t → t.status = 0 ∨ t.status = 2) ∧
    (∀ a bytes, exec (.wWrite a bytes) s = .next t → t.status = 0 ∨ t.status = 3) ∧
    (∀ k, ∀ i ∈ [Instr.wRdrxb0Id k, .wRdrxb0Data k, .wRdrxb1Id k, .wRdrxb1Data k],
      exec i s = .next t → t.status = 0 ∨ t.status = 3)

/-- `ERR_INDEX`: `IDX` > 2 in RTS, SETSID, SETEID, TXFRAME; `IDX` > 1 in RDRXB, RXFRAME (R212), whatever the other
operands are (R220). -/
def Obligations.IndexOutOfRangeIsRejected : Prop :=
  ∀ (idx len : Byte) (pt : StartPoint) (id : IdOperand) (f : CanFrame) (s : State),
    (2 < idx.toNat →
      exec (.rts idx) s = .next (s.rejectedWith 2) ∧
      exec (.setsid idx id) s = .next (s.rejectedWith 2) ∧
      exec (.seteid idx id) s = .next (s.rejectedWith 2) ∧
      exec (.txframe idx f) s = .next (s.rejectedWith 2)) ∧
    (1 < idx.toNat →
      exec (.rdrxb idx pt len) s = .next (s.rejectedWith 2) ∧
      exec (.rxframe idx) s = .next (s.rejectedWith 2))

/-- `ERR_ID`: an identifier that does not fit its frame type (R213, R154), where no earlier check fails. -/
def Obligations.IdentifierOutOfRangeIsRejected : Prop :=
  ∀ (idx : Byte) (id : IdOperand) (f : CanFrame) (s : State), idx.toNat ≤ 2 →
    (0x7FF < id.toNat → exec (.setsid idx id) s = .next (s.rejectedWith 4)) ∧
    (0x1FFFFFFF < id.toNat → exec (.seteid idx id) s = .next (s.rejectedWith 4)) ∧
    (f.dataLength.toNat ≤ 8 → f.frameType = .standard → 0x7FF < f.id.toNat →
      exec (.txframe idx f) s = .next (s.rejectedWith 4)) ∧
    (f.dataLength.toNat ≤ 8 → f.frameType = .extended → 0x1FFFFFFF < f.id.toNat →
      exec (.txframe idx f) s = .next (s.rejectedWith 4))

/-- `ERR_LEN`: `F.dataLength` > 8 in TXFRAME (also when remote); `LEN` = 0 or > 13 in WRITE; `LEN` = 0, or > 13 from
the identifier start, or > 8 from the data start in RDRXB (R214), where the index passes. -/
def Obligations.LengthOutOfRangeIsRejected : Prop :=
  ∀ (a idx len : Byte) (wbuf : Vector Byte 13) (f : CanFrame) (s : State),
    (len.toNat = 0 ∨ 13 < len.toNat → exec (.write a len wbuf) s = .next (s.rejectedWith 3)) ∧
    (idx.toNat ≤ 1 → len.toNat = 0 ∨ 13 < len.toNat →
      exec (.rdrxb idx .ident len) s = .next (s.rejectedWith 3)) ∧
    (idx.toNat ≤ 1 → len.toNat = 0 ∨ 8 < len.toNat →
      exec (.rdrxb idx .data len) s = .next (s.rejectedWith 3)) ∧
    (idx.toNat ≤ 2 → 8 < f.dataLength.toNat → exec (.txframe idx f) s = .next (s.rejectedWith 3))

/-- "Exactly one code is reported, the first failing check in this order: ERR_OP, then ERR_INDEX, then ERR_LEN, then
ERR_ID" (R220), for the operations with more than one check, as they are issued on the port. -/
def Obligations.FirstFailingCheckIsReported : Prop :=
  ∀ (p : Port) (s t : State), s.issue (.command p) = .next t →
    t.status =
      if 0xC ≤ p.op.toNat then 1
      else if (p.op = 0x6 ∨ p.op = 0x8 ∨ p.op = 0x9 ∨ p.op = 0xA) ∧ 2 < p.idx.toNat then 2
      else if (p.op = 0x7 ∨ p.op = 0xB) ∧ 1 < p.idx.toNat then 2
      else if p.op = 0x2 ∧ (p.len.toNat = 0 ∨ 13 < p.len.toNat) then 3
      else if p.op = 0x7 ∧ (p.len.toNat = 0 ∨ (if p.pt = .ident then 13 else 8) < p.len.toNat) then 3
      else if p.op = 0xA ∧ 8 < p.frame.dataLength.toNat then 3
      else if p.op = 0x8 ∧ 0x7FF < p.frame.id.toNat then 4
      else if p.op = 0x9 ∧ 0x1FFFFFFF < p.frame.id.toNat then 4
      else if p.op = 0xA ∧ (if p.frame.frameType = .standard then 0x7FF else 0x1FFFFFFF) < p.frame.id.toNat then 4
      else 0

/-- Every operation writes `STATUS`, and none reads it or what the result port held: their former contents make no
difference (R22, R26). -/
def Obligations.StatusAndResultAreNeverRead : Prop :=
  ∀ (i : Instr) (s : State) (code : BitVec 3) (res : Result),
    exec i { s with status := code, result := res } = exec i s

/-- Only an RXFRAME that is not rejected writes `SF`, and no operation reads it (R24): its former contents change
nothing of an outcome but an `SF` that is kept. -/
def Obligations.ScratchFrameIsRxframesAlone : Prop :=
  ∀ (i : Instr) (s t : State), exec i s = .next t →
    ((∀ idx, i ≠ .rxframe idx) ∨ t.status ≠ 0 → t.sf = s.sf) ∧
    (∀ f, ((∀ idx, i ≠ .rxframe idx) ∨ t.status ≠ 0 → exec i { s with sf := f } = .next { t with sf := f }) ∧
      ((∃ idx, i = .rxframe idx) → t.status = 0 → exec i { s with sf := f } = .next t))

/-- No step changes the parameters (R7; that they stand in the state is log entry 1) or who answers (DESIGN CHOICE, log
entry 27), and a step changes the host's remaining moves by taking the first at most (R20; that the moves are a list in
the state is DESIGN CHOICE, log entry 11). -/
def Obligations.ParametersNeverChange : Prop :=
  ∀ s t : State, step s = .next t →
    t.params = s.params ∧ t.env = s.env ∧ (t.moves = s.moves ∨ ∃ m, s.moves = m :: t.moves)

/-! ## Traces -/

/-- The numbers of brackets and exchanges of R89, and none for a rejected operation. R89 names operations; that a
wire-level row has the counts of its operation is the model's (DEDUCED, log entry 12). -/
def Obligations.ExchangeCountsAreThoseListed : Prop :=
  ∀ (i : Instr) (s t : State), exec i s = .next t →
    ∃ ev, t.trace = s.trace ++ ev ∧
      traceCounts ev = if Instr.rejection i = none then expectedCounts t.sf.isRemote i else (0, 0)

/-- An operation issues whole brackets, each with at least one exchange, and ends deselected if it began so (R28,
R63, R128). -/
def Obligations.OperationsIssueWholeBrackets : Prop :=
  ∀ (i : Instr) (s t : State), exec i s = .next t →
    ∃ brs : List (List Byte × List Byte),
      t.trace = s.trace ++ (brs.map fun b => bracketEvents b.1 b.2).flatten ∧
      (∀ b ∈ brs, b.1 ≠ [] ∧ b.1.length = b.2.length) ∧
      (s.cs = .deselected → t.cs = .deselected)

/-- The block never sends a first byte outside the thirteen (R99). -/
def Obligations.OnlyListedFirstBytesAreSent : Prop :=
  ∀ (i : Instr) (s t : State), exec i s = .next t →
    ∃ ev, t.trace = s.trace ++ ev ∧ ∀ b ∈ firstBytes ev,
      b ∈ ([0xC0, 0x03, 0x02, 0x05, 0xA0, 0xB0, 0x81, 0x82, 0x84, 0x90, 0x92, 0x94, 0x96] : List Byte)

/-- Answers fixed in advance are consumed in order, one per exchange, none examined twice or skipped, and MOCK takes no
part where the oracle answers (R13, R14, R63). -/
def Obligations.OracleAnswersAreConsumedInOrder : Prop :=
  ∀ (i : Instr) (s t : State), s.env = .oracle → exec i s = .next t →
    ∃ ev, t.trace = s.trace ++ ev ∧ t.mock = s.mock ∧
      ((answersOf ev).length ≤ s.answers.length → s.answers = answersOf ev ++ t.answers)

/-! ## The machine -/

/-- The invariant (legal trace, chip select and in-flight state, `STATUS` code, scratch frame, canonical registers)
is kept by every step, from every state that has it (R23, R27, R28, R29, R70). -/
def Obligations.StepKeepsInvariant : Prop :=
  ∀ s t : State, s.Inv → step s = .next t → t.Inv

/-- The invariant holds at reset. -/
def Obligations.ResetHasInvariant : Prop := State.reset.Inv

/-- Reset (R240, R41): deselected, idle, `STATUS` = OK, `SF.valid` = 0, no transport event, and nothing runs until the
host issues an operation. -/
def Obligations.NothingRunsAfterReset : Prop :=
  State.reset.cs = .deselected ∧ State.reset.cur = none ∧ State.reset.status = 0 ∧
  State.reset.sf.valid = false ∧ State.reset.trace = [] ∧ step State.reset = .next State.reset

/-- The block's reset, idle or in the middle of an operation (R240, R242): the operation is abandoned, no further event
of it is issued, and only a selected chip sees its chip select return. That the reset is a host
move, that a selected chip sees it as an event `DES`, and that the parameters and the remaining moves are kept, are the
model's choices (DEDUCED and DESIGN CHOICE, log entry 16). -/
def Obligations.BlockResetAbandonsOperation : Prop :=
  ∀ (s : State) (ms : List Move), s.mockStopped = false → s.moves = .reset :: ms →
    ∃ t, step s = .next t ∧ t.cs = .deselected ∧ t.cur = none ∧ t.status = 0 ∧ t.sf.valid = false ∧
      t.result = .none ∧ t.moves = ms ∧ t.params = s.params ∧
      t.trace = s.trace ++ (if s.cs = .selected then [.des] else [])

/-- The two granularities agree (R29: "the big-step result of an operation is the result of running its events in
order against the oracle's answers"): an operation started and run one event per step ends, after as many steps as it
has events, in the state that exec gives. That the start is a step of its own, and completion belongs to the step of the
last event, is the model's choice (DESIGN CHOICE, log entry 14). -/
def Obligations.EventStepsComposeToOperation : Prop :=
  ∀ (s : State) (w : Presented) (i : Instr), s.ready → s.moves = [.start w] → decode w = .ok i →
    ∃ t, exec i { s with moves := [] } = .next t ∧
      Sys2Proof.core.run (1 + (t.trace.length - s.trace.length)) s = .next t

/-- The busy block accepts nothing: with no reset asserted a step issues exactly one more event of the operation in
progress, the host's moves stay but for a `wait` (log entry 16), and the block stays with that operation or completes it
(R20, R25, R29). -/
def Obligations.BusyBlockIssuesOneEvent : Prop :=
  ∀ (s : State) (i : Instr), s.Inv → s.mockStopped = false → s.cur = some i → s.moves.head? ≠ some .reset →
    ∃ t e, step s = .next t ∧ t.trace = s.trace ++ [e] ∧
      t.moves = (if s.moves.head? = some .wait then s.moves.tail else s.moves) ∧
      ((t.cur = some i ∧ t.seq = s.seq + 1 ∧ t.status = s.status) ∨ (t.cur = none ∧ t.status = 0))

/-- A step of the idle block runs the decoded instruction: `issue` is exec of it with the move taken; `start` latches
it, or rejects it at once (R20, R29). -/
def Obligations.StepRunsDecodedInstruction : Prop :=
  ∀ (s : State) (w : Presented) (i : Instr) (ms : List Move), s.ready → decode w = .ok i →
    (s.moves = .issue w :: ms → step s = exec i { s with moves := ms }) ∧
    (s.moves = .start w :: ms →
      step s = .next (match Instr.rejection i with
        | some code => { s with moves := ms }.rejectedWith code
        | none => { s with moves := ms, cur := some i, seq := 0, rx := [] }))

/-- The host's read of `SF` is a fault while `SF.valid` = 0 and presents a copy of it otherwise (R24, R210). -/
def Obligations.ReadingInvalidScratchFrameFaults : Prop :=
  ∀ (s : State) (ms : List Move), s.ready → s.moves = .readFrame :: ms →
    step s =
      if s.sf.valid then .next { s with moves := ms, result := .frame s.sf }
      else .fault .scratchFrameInvalid

/-! ## The codec's functions -/

/-- The packing functions as the source's shifts write them (R150, R151). -/
def Obligations.PackingIsTheShiftFormula : Prop :=
  (∀ id : StdId, packStd id = ⟨(id >>> 3).setWidth 8, id.setWidth 8 <<< 5, 0x00, 0x00⟩) ∧
  (∀ id : ExtId, packExt id =
    ⟨(id >>> 21).setWidth 8, ((id >>> 18).setWidth 8 <<< 5) ||| 0x08 ||| ((id >>> 16).setWidth 8 &&& 0x03),
     (id >>> 8).setWidth 8, id.setWidth 8⟩)

/-- The four laws of R152: unpacking inverts both packings; it ignores ID1 bits 4 and 2 always, and ID1 bits 1..0, ID2
and ID3 of a Standard block; the packings are injective with disjoint images. The spec marks these laws as its own
inference ("[derived: from rule R150, rule R151 and `30_encoding.md` rule R96]"). -/
def Obligations.UnpackInvertsPack : Prop :=
  (∀ i : StdId, unpackId (packStd i) = (.standard, i.setWidth 29)) ∧
  (∀ i : ExtId, unpackId (packExt i) = (.extended, i)) ∧
  (∀ b : IdBlock, ∀ m : Byte, unpackId { b with id1 := b.id1 ^^^ (m &&& 0x14) } = unpackId b) ∧
  (∀ b : IdBlock, ∀ m b2 b3 : Byte, b.id1.getLsbD 3 = false →
    unpackId { b with id1 := b.id1 ^^^ (m &&& 0x03), id2 := b2, id3 := b3 } = unpackId b) ∧
  (∀ i j : StdId, packStd i = packStd j → i = j) ∧
  (∀ i j : ExtId, packExt i = packExt j → i = j) ∧
  (∀ (i : StdId) (j : ExtId), packStd i ≠ packExt j)

/-- `UnpackId` as the source's formula writes it, at 29 bits (R96). -/
def Obligations.UnpackingIsTheSourceFormula : Prop :=
  ∀ b : IdBlock,
    unpackId b =
      if b.id1.getLsbD 3 then
        (.extended,
          ((((b.id0.setWidth 29 <<< 3) ||| ((b.id1.setWidth 29 >>> 5) &&& 0x7)) <<< 18) |||
            ((b.id1.setWidth 29 &&& 0x3) <<< 16) ||| (b.id2.setWidth 29 <<< 8) ||| b.id3.setWidth 29 : ExtId))
      else
        (.standard, ((b.id0.setWidth 29 <<< 3) ||| ((b.id1.setWidth 29 >>> 5) &&& 0x7) : ExtId))

/-- `DlcByte` (R153), for lengths 0..8 and both values of `REMOTE_DLC`. -/
def Obligations.DataLengthByteIsAsListed : Prop :=
  ∀ len : Byte, len.toNat ≤ 8 →
    dlcByte .length false len = len ∧ dlcByte .zero false len = len ∧
    dlcByte .length true len = 0x40 ||| len ∧ dlcByte .zero true len = 0x40

/-- The indexed opcodes (R95, R97), by the tables, and by the bit structure that the spec marks as its own observation
("Observed structure [derived: …]"). -/
def Obligations.IndexedOpcodesAreThoseListed : Prop :=
  (rtsOp 0).byte = 0x81 ∧ (rtsOp 1).byte = 0x82 ∧ (rtsOp 2).byte = 0x84 ∧
  (rdRxOp 0 .ident).byte = 0x90 ∧ (rdRxOp 0 .data).byte = 0x92 ∧
  (rdRxOp 1 .ident).byte = 0x94 ∧ (rdRxOp 1 .data).byte = 0x96 ∧
  (∀ n : Fin 3, (rtsOp (BitVec.ofNat 8 n)).byte = 0x80#8 ||| (1#8 <<< n.val)) ∧
  (∀ n : Fin 2, (rdRxOp (BitVec.ofNat 8 n) .ident).byte = 0x90#8 ||| (BitVec.ofNat 8 n <<< 2) ∧
    (rdRxOp (BitVec.ofNat 8 n) .data).byte = 0x90#8 ||| (BitVec.ofNat 8 n <<< 2) ||| 0x02#8)

/-- The default address map (PRESUMED, log entry 2: R9 calls it general knowledge): the addresses of the buffer
families. -/
def Obligations.DefaultAddressesOfBuffers : Prop :=
  (∀ n : Fin 3,
    (familyAddr AddrMap.default.txbCtrl (BitVec.ofNat 8 n)).toNat = 0x30 + 0x10 * n ∧
    (familyAddr AddrMap.default.txbSidh (BitVec.ofNat 8 n)).toNat = 0x31 + 0x10 * n ∧
    (familyAddr AddrMap.default.txbDlc (BitVec.ofNat 8 n)).toNat = 0x35 + 0x10 * n) ∧
  (∀ n : Fin 2,
    (familyAddr AddrMap.default.rxbCtrl (BitVec.ofNat 8 n)).toNat = 0x60 + 0x10 * n ∧
    (familyAddr AddrMap.default.rxbSidh (BitVec.ofNat 8 n)).toNat = 0x61 + 0x10 * n ∧
    (familyAddr AddrMap.default.rxbDlc (BitVec.ofNat 8 n)).toNat = 0x65 + 0x10 * n)

/-- The end-to-end round trip (R160): the register bytes a TXFRAME sends, presented as answers to the read positions
of a later RXFRAME, come back as the frame; of a remote frame, the type, the identifier and the flag. The spec
marks this law as its own inference ("[derived: from rule R157, rule R158 and rule R152]"). -/
def Obligations.TransmittedFrameIsReceived : Prop :=
  ∀ (n m : Byte) (f : CanFrame) (s t u : State) (ev : List Event) (x0 x1 x2 c : Byte) (pad rest : List Byte),
    n.toNat ≤ 2 → m.toNat ≤ 1 → f.dataLength.toNat ≤ 8 → idFits f.frameType f.id = true →
    exec (.txframe n f) s = .next t → t.trace = s.trace ++ ev → u.env = .oracle →
    c.getLsbD u.params.rxRtrBit = f.isRemote →
    (f.isRemote = false → pad.length = 8 - f.dataLength.toNat →
      u.answers = [x0, x1, c, x2] ++ registerBytes ev ++ pad ++ rest →
      ∃ v, exec (.rxframe m) u = .next v ∧ v.answers = rest ∧ v.sf.valid = true ∧
        v.sf.frameType = f.frameType ∧ v.sf.id.toNat = f.id.toNat ∧ v.sf.isRemote = false ∧
        v.sf.dataLength.toNat = f.dataLength.toNat ∧
        ∀ k : Fin 8, k.val < f.dataLength.toNat → v.sf.data[k] = f.data[k]) ∧
    (f.isRemote = true → u.answers = [x0, x1, c, x2] ++ (registerBytes ev).take 4 ++ rest →
      ∃ v, exec (.rxframe m) u = .next v ∧ v.answers = rest ∧ v.sf.valid = true ∧
        v.sf.frameType = f.frameType ∧ v.sf.id.toNat = f.id.toNat ∧ v.sf.isRemote = true ∧
        v.sf.dataLength = 0)

/-! ## The reference responder (a simulator stand-in: nothing here is about the real controller, D28) -/

/-- Against MOCK, READ gives the addressed register and changes no register (R71). -/
def Obligations.MockReadGivesTheRegister : Prop :=
  ∀ (a : Byte) (s : State), s.env = .mock → s.mock.ph ≠ .refused →
    ∃ t, exec (.read a) s = .next t ∧ t.result = .byte (Memory.read s.mock.reg a.toNat) ∧
      t.mock.reg = s.mock.reg

/-- Against MOCK, RDRXB gives the registers from `A_RXBSIDH(n)`, or from five above it, upwards (R71, R58), and the two
status reads give R75's bytes; no register changes. -/
def Obligations.MockFastReadGivesTheBuffer : Prop :=
  ∀ (idx len : Byte) (s : State), s.env = .mock → s.mock.ph ≠ .refused → idx.toNat ≤ 1 →
    (1 ≤ len.toNat → len.toNat ≤ 13 →
      ∃ t, exec (.rdrxb idx .ident len) s = .next t ∧ t.mock.reg = s.mock.reg ∧
        t.result = .block ((addrRun (familyAddr s.params.map.rxbSidh idx) len.toNat).map s.mock.get)) ∧
    (1 ≤ len.toNat → len.toNat ≤ 8 →
      ∃ t, exec (.rdrxb idx .data len) s = .next t ∧ t.mock.reg = s.mock.reg ∧
        t.result = .block ((addrRun (familyAddr s.params.map.rxbSidh idx + 5) len.toNat).map s.mock.get)) ∧
    (∃ t v, exec .rdstat s = .next t ∧ t.mock.reg = s.mock.reg ∧ t.result = .byte v ∧
      ∀ b : Fin 8, v.getLsbD b =
        (decide (b = s.params.rxIfBit0 ∨ b = s.params.rxIfBit1) &&
          (s.mock.get s.params.map.canintf).getLsbD b)) ∧
    (∃ t, exec .rxstat s = .next t ∧ t.mock.reg = s.mock.reg ∧ t.result = .byte 0)

/-- Against MOCK, byte k of a WRITE is stored at `ADDR + k` (R58, R71). A WRITE that stores to `A_CANCTRL` also echoes
the mode request into bits 7..5 of `A_CANSTAT` (R72), where that is another register: a byte stored to `A_CANSTAT` after
it stands as stored, and otherwise bits 4..0 keep the byte stored to it before, or its former value. -/
def Obligations.MockWriteStoresAscending : Prop :=
  ∀ (a len : Byte) (wbuf : Vector Byte 13) (s : State), s.env = .mock → s.mock.ph ≠ .refused → s.memOk →
    1 ≤ len.toNat → len.toNat ≤ 13 →
    ∃ t, exec (.write a len wbuf) s = .next t ∧
      (∀ k : Fin 13, k.val < len.toNat →
        a + BitVec.ofNat 8 k ≠ s.params.map.canstat ∨ s.params.map.canctrl = s.params.map.canstat ∨
          (∀ j : Fin 13, j.val < len.toNat → a + BitVec.ofNat 8 j ≠ s.params.map.canctrl) →
        t.mock.get (a + BitVec.ofNat 8 k) = wbuf[k]) ∧
      (∀ j : Fin 13, j.val < len.toNat → a + BitVec.ofNat 8 j = s.params.map.canctrl →
        s.params.map.canctrl ≠ s.params.map.canstat →
        (∀ k : Fin 13, k.val < len.toNat → a + BitVec.ofNat 8 k = s.params.map.canstat → j < k →
          t.mock.get s.params.map.canstat = wbuf[k]) ∧
        (∀ k : Fin 13, k.val < len.toNat → a + BitVec.ofNat 8 k = s.params.map.canstat → k < j →
          ∀ b : Fin 8, (t.mock.get s.params.map.canstat).getLsbD b =
            if 5 ≤ b.val then wbuf[j].getLsbD b else wbuf[k].getLsbD b) ∧
        ((∀ k : Fin 13, k.val < len.toNat → a + BitVec.ofNat 8 k ≠ s.params.map.canstat) →
          ∀ b : Fin 8, (t.mock.get s.params.map.canstat).getLsbD b =
            if 5 ≤ b.val then wbuf[j].getLsbD b else (s.mock.get s.params.map.canstat).getLsbD b))

/-- Against MOCK, BITMOD merges the value under the mask into the addressed register (R72, R123), and a modified
`A_CANCTRL` is echoed in the mode field of `A_CANSTAT`. -/
def Obligations.MockBitModifyMergesUnderMask : Prop :=
  ∀ (a m v : Byte) (s : State), s.env = .mock → s.mock.ph ≠ .refused → s.memOk →
    s.params.map.canctrl ≠ s.params.map.canstat →
    ∃ t, exec (.bitmod a m v) s = .next t ∧
      (∀ k : Fin 8, (t.mock.get a).getLsbD k =
        if m.getLsbD k then v.getLsbD k else (s.mock.get a).getLsbD k) ∧
      (a = s.params.map.canctrl → ∀ k : Fin 8, (t.mock.get s.params.map.canstat).getLsbD k =
        if 5 ≤ k.val then (t.mock.get a).getLsbD k else (s.mock.get s.params.map.canstat).getLsbD k)

/-- Against MOCK, RTS sets bit 3 of the buffer's control register and no other bit (R73, R34). -/
def Obligations.MockRequestToSendSetsTheBit : Prop :=
  ∀ (idx : Byte) (s : State), s.env = .mock → s.mock.ph ≠ .refused → s.memOk → idx.toNat ≤ 2 →
    ∃ t, exec (.rts idx) s = .next t ∧
      ∀ k : Fin 8, (t.mock.get (familyAddr s.params.map.txbCtrl idx)).getLsbD k =
        (decide (k.val = 3) || (s.mock.get (familyAddr s.params.map.txbCtrl idx)).getLsbD k)

/-- Against MOCK, RESET clears every register but the mode fields of `A_CANSTAT` and `A_CANCTRL`, which hold the code
of Configuration (R74). -/
def Obligations.MockResetEntersConfiguration : Prop :=
  ∀ s : State, s.env = .mock → s.mock.ph ≠ .refused →
    ∃ t, exec .reset s = .next t ∧ ∀ a : Byte,
      t.mock.get a =
        if a = s.params.map.canstat ∨ a = s.params.map.canctrl then
          s.params.modeCode.configuration.setWidth 8 <<< 5
        else 0

/-- `Deliver(n, m)` (R76) with the default parameters: the thirteen bytes are copied, the remote flag, the receive flag
and the request bit are as R76 says, and every other register is as it was. -/
def Obligations.MockDeliveryCopiesTheFrame : Prop :=
  ∀ (n : Fin 3) (b : Fin 2) (m : Mock), Memory.wf m.reg = true →
    (∀ k : Fin 13,
      (m.deliver Params.default n b).get (BitVec.ofNat 8 (0x61 + 0x10 * b + k)) =
        m.get (BitVec.ofNat 8 (0x31 + 0x10 * n + k))) ∧
    (m.deliver Params.default n b).get (BitVec.ofNat 8 (0x60 + 0x10 * b)) =
      setBit (m.get (BitVec.ofNat 8 (0x60 + 0x10 * b))) 3
        ((m.get (BitVec.ofNat 8 (0x35 + 0x10 * n))).getLsbD 6) ∧
    (m.deliver Params.default n b).get 0x2C = setBit (m.get 0x2C) b true ∧
    (m.deliver Params.default n b).get (BitVec.ofNat 8 (0x30 + 0x10 * n)) =
      setBit (m.get (BitVec.ofNat 8 (0x30 + 0x10 * n))) 3 false ∧
    (∀ a : Byte, a ≠ 0x2C → a.toNat ≠ 0x30 + 0x10 * n →
      ¬(0x60 + 0x10 * b ≤ a.toNat ∧ a.toNat ≤ 0x6D + 0x10 * b) →
      (m.deliver Params.default n b).get a = m.get a)

/-- MOCK refuses no operation of the block and is between brackets after each (R71, R99). -/
def Obligations.MockRefusesNoOperation : Prop :=
  ∀ (i : Instr) (s t : State), s.env = .mock → s.mock.ph ≠ .refused → exec i s = .next t →
    t.mock.ph ≠ .refused ∧ (Instr.rejection i = none → t.mock.ph = .idle)

/-- The frame of memory: against MOCK an operation changes no register but those its store set names by the addresses it
sends, and a rejected one changes none (R71 to R74). -/
def Obligations.MockChangesOnlyStoredRegisters : Prop :=
  ∀ (i : Instr) (s t : State), s.env = .mock → s.mock.ph ≠ .refused → exec i s = .next t →
    ∀ a : Byte, (Instr.rejection i = none → a ∉ storeSet s.params i) →
      Memory.read t.mock.reg a.toNat = Memory.read s.mock.reg a.toNat

/-! ## Host-level sequences -/

/-- `getMode` (R182) gives a mode whose code the mode field is, and none exactly when the field is no mode's code (U17).
`requestMode` (R183): with answers fixed in advance, the polls that do not show the mode are repeated and the first that
does ends the sequence with success. That it ends without success when none of `bound` polls shows the mode is the model's
choice (DESIGN CHOICE, log entry 24: R183's own loop has no bound, and `MODE_WAIT_BOUND` is open in R7 and D32). -/
def Obligations.RequestModePollsUntilConfirmed : Prop :=
  (∀ (s : State) (r0 r1 v : Byte) (rest : List Byte), s.env = .oracle → s.answers = [r0, r1, v] ++ rest →
    (getMode s).2.answers = rest ∧
    (∀ m, (getMode s).1 = some m → s.params.modeCode.code m = field v 5 3) ∧
    ((getMode s).1 = none ↔ ∀ m, s.params.modeCode.code m ≠ field v 5 3)) ∧
  ∀ (target : Mode) (s : State) (w : List Byte) (polls : List (Byte × Byte × Byte)) (rest : List Byte),
    s.env = .oracle → w.length = 4 →
    (∀ q ∈ polls, field q.2.2 5 3 ≠ s.params.modeCode.code target) →
    (s.answers = w ++ polls.flatMap (fun q => [q.1, q.2.1, q.2.2]) ++ rest →
      (requestMode target polls.length s).1 = false ∧ (requestMode target polls.length s).2.answers = rest) ∧
    (∀ (q : Byte × Byte × Byte) (extra : Nat), field q.2.2 5 3 = s.params.modeCode.code target →
      s.answers = w ++ polls.flatMap (fun q => [q.1, q.2.1, q.2.2]) ++ [q.1, q.2.1, q.2.2] ++ rest →
      (requestMode target (polls.length + 1 + extra) s).1 = true ∧
      (requestMode target (polls.length + 1 + extra) s).2.answers = rest)

/-- The fail-fast rule (R185): on an occupied buffer each of the six transmit operations issues the one READ of the free
check and nothing further, and reports Not-ready; on a free one it goes on to its body (R162, R191). Only the legal
indices, lengths and priorities can be given (DESIGN CHOICE, log entry 26). -/
def Obligations.OccupiedBufferFailsFast : Prop :=
  ∀ (idx : Fin 3) (len : Fin 9) (prio : BitVec 2) (f : CanFrame) (s : State),
    ∃ r0 r1 v u, s.Ran
        (bracketEvents
          [0x03, familyAddr s.params.map.txbCtrl (BitVec.ofNat 8 idx), s.params.dummyTx] [r0, r1, v]) (.byte v) u ∧
      (v.getLsbD 3 = true →
        transmitWithId idx f s = (false, u) ∧ remoteTransmit idx f s = (false, u) ∧
        setStandardId idx f.id s = (false, u) ∧ setExtendedId idx f.id s = (false, u) ∧
        transmit idx len f.data s = (false, u) ∧ setPriority idx prio s = (false, u)) ∧
      (v.getLsbD 3 = false →
        transmitWithId idx f s = (true, u.run (.txframe (BitVec.ofNat 8 idx) { f with isRemote := false })) ∧
        remoteTransmit idx f s = (true, u.run (.txframe (BitVec.ofNat 8 idx) { f with isRemote := true })) ∧
        setStandardId idx f.id s = (true, u.run (.setsid (BitVec.ofNat 8 idx) f.id)) ∧
        setExtendedId idx f.id s = (true, u.run (.seteid (BitVec.ofNat 8 idx) f.id)) ∧
        setPriority idx prio s =
          (true, u.run (.bitmod (familyAddr s.params.map.txbCtrl (BitVec.ofNat 8 idx)) 0x03 (prio.setWidth 8))) ∧
        ∃ (rs : List Byte) (p q : State), rs.length = 3 + len.val ∧
          u.Ran (bracketEvents
            ([0x02, familyAddr s.params.map.txbDlc (BitVec.ofNat 8 idx), BitVec.ofNat 8 len] ++
              f.data.toList.take len) rs) .none p ∧
          p.run (.rts (BitVec.ofNat 8 idx)) = q ∧ transmit idx len f.data s = (true, q))

/-- `getTransmitError` (R186): arbitration lost on bit 5, other error on bit 4, none on neither; the result with both
set is the open parameter (D35). -/
def Obligations.TransmitErrorMapsTwoBits : Prop :=
  ∀ (p : Params) (v : Byte),
    (v.getLsbD 5 = true → v.getLsbD 4 = false → transmitErrorOf p v = .lostArbitration) ∧
    (v.getLsbD 5 = false → v.getLsbD 4 = true → transmitErrorOf p v = .otherError) ∧
    (v.getLsbD 5 = false → v.getLsbD 4 = false → transmitErrorOf p v = .noError) ∧
    (v.getLsbD 5 = true → v.getLsbD 4 = true → transmitErrorOf p v = p.bothErrors)

/-- The source's property of R185, against MOCK: a transmit buffer is not free right after a request to send, and
`abortTransmit` makes it free again (R73, R184, R190). -/
def Obligations.MockBufferOccupiedUntilAborted : Prop :=
  ∀ (idx : Fin 3) (s : State), s.env = .mock → s.mock.ph ≠ .refused → s.memOk →
    familyAddr s.params.map.txbCtrl (BitVec.ofNat 8 idx) ≠ s.params.map.canctrl →
    (isTransmitBufferFree idx (s.run (.rts (BitVec.ofNat 8 idx)))).1 = false ∧
    (isTransmitBufferFree idx (abortTransmit idx (s.run (.rts (BitVec.ofNat 8 idx))))).1 = true
end

