-- ==== Sys2Proof/Laws/Codec.lean ====
section
/-! SUPPORT. The codec's functions bit by bit: each bit of an unpacked identifier is a bit of the block
(30_encoding.md R92, R96). -/

namespace Sys2Proof.Machine

/-- An identifier within the Extended range has no bit above 28. -/
theorem id_bit_of_extended {id : IdOperand} (h : id.toNat ≤ 0x1FFFFFFF) {k : Nat} (hk : 29 ≤ k) :
    id.getLsbD k = false := by
  rw [BitVec.getLsbD]
  exact Nat.testBit_lt_two_pow
    (calc id.toNat < 2 ^ 29 := by omega
      _ ≤ 2 ^ k := Nat.pow_le_pow_right (by decide) hk)

/-- Bit k of the identifier of an Extended block. -/
theorem unpackId_extended_bit {b : IdBlock} (h : b.id1.getLsbD 3 = true) {k : Nat} (hk : k < 29) :
    (unpackId b).2.getLsbD k =
      if k < 8 then b.id3.getLsbD k
      else if k < 16 then b.id2.getLsbD (k - 8)
      else if k < 18 then b.id1.getLsbD (k - 16)
      else if k < 21 then b.id1.getLsbD (k - 13)
      else b.id0.getLsbD (k - 21) := by
  unfold unpackId
  rw [if_pos h]
  simp only [BitVec.getLsbD_or]
  simp only [BitVec.getLsbD_shiftLeft]
  simp only [BitVec.getLsbD_setWidth]
  simp only [stdField, field]
  simp only [BitVec.getLsbD_or]
  simp only [BitVec.getLsbD_shiftLeft]
  simp only [BitVec.getLsbD_setWidth]
  simp only [BitVec.getLsbD_extractLsb']
  simp only [hk, decide_true, Bool.true_and]
  by_cases h1 : k < 8
  · simp [h1, show k < 16 by omega, show k < 18 by omega]
  · by_cases h2 : k < 16
    · simp [h1, h2, show k < 18 by omega, show k - 8 < 29 by omega,
        BitVec.getLsbD_of_ge _ _ (show 8 ≤ k by omega)]
    · by_cases h3 : k < 18
      · obtain rfl | rfl : k = 16 ∨ k = 17 := by omega
        · simp
        · simp
      · have e : ¬ k - 16 < 2 := by omega
        have e3 := BitVec.getLsbD_of_ge b.id3 _ (show 8 ≤ k by omega)
        have e2 := BitVec.getLsbD_of_ge b.id2 _ (show 8 ≤ k - 8 by omega)
        by_cases h4 : k < 21
        · simp [h1, h2, h3, h4, e, e2, e3, show k - 18 < 11 by omega, show k - 18 < 3 by omega,
            show 5 + (k - 18) = k - 13 by omega, show k - 18 < 29 by omega]
        · simp [h1, h2, h3, h4, e, e2, e3, show k - 18 < 11 by omega, show ¬ k - 18 < 3 by omega,
            show k - 18 - 3 = k - 21 by omega, show k - 18 < 29 by omega,
            show k - 21 < 11 by omega]

/-- Bit k of the identifier of a Standard block. -/
theorem unpackId_standard_bit {b : IdBlock} (h : b.id1.getLsbD 3 = false) {k : Nat} (hk : k < 29) :
    (unpackId b).2.getLsbD k =
      if k < 3 then b.id1.getLsbD (k + 5) else if k < 11 then b.id0.getLsbD (k - 3) else false := by
  unfold unpackId
  rw [if_neg (by rw [h]; decide)]
  simp only [BitVec.getLsbD_setWidth]
  simp only [stdField, field]
  simp only [BitVec.getLsbD_or]
  simp only [BitVec.getLsbD_shiftLeft]
  simp only [BitVec.getLsbD_setWidth]
  simp only [BitVec.getLsbD_extractLsb']
  by_cases h1 : k < 3
  · simp [hk, h1, show k < 11 by omega, show 5 + k = k + 5 by omega]
  · by_cases h2 : k < 11
    · simp [hk, h1, h2, show k - 3 < 11 by omega]
    · simp [h1, h2]

/-- The frame type ID1 bit 3 selects. -/
theorem unpackId_type (b : IdBlock) :
    (unpackId b).1 = if b.id1.getLsbD 3 then .extended else .standard := by
  unfold unpackId
  split <;> rfl

/-- A Standard block unpacks to an identifier of at most 11 bits (R23). -/
theorem unpackId_standard_fits {b : IdBlock} (h : (unpackId b).1 = .standard) :
    (unpackId b).2.toNat ≤ 0x7FF := by
  unfold unpackId at h ⊢
  split
  · rename_i h3
    rw [if_pos h3] at h
    cases h
  · have := (stdField b).isLt
    simp only [BitVec.toNat_setWidth]
    omega

/-- A decoded frame is a legal scratch frame (R23, R158). -/
theorem decodeFrame_ok (rem : Bool) (bs : List Byte) (n : Nat) : (decodeFrame rem bs n).ok :=
  ⟨fun h => unpackId_standard_fits h, fun h => by
    have e : rem = true := h
    subst e
    rfl⟩

end Sys2Proof.Machine
end

