-- ==== Sys2Proof/Laws/Memory.lean ====
section
/-! SUPPORT. The laws of the register space: a read after a write, and that every operation on it keeps the
canonical form. -/

namespace Sys2Proof.Machine

open Sys2Proof.Config

theorem memory_wfFrom_mono {lo lo' : Nat} {m : List Host.Cell} (h : lo' ≤ lo)
    (w : Memory.wfFrom lo m = true) : Memory.wfFrom lo' m = true := by
  cases m with
  | nil => rfl
  | cons c rest =>
    obtain ⟨k, v⟩ := c
    simp only [Memory.wfFrom, Bool.and_eq_true, decide_eq_true_eq] at w ⊢
    exact ⟨⟨⟨by omega, w.1.1.2⟩, w.1.2⟩, w.2⟩

/-- Below the first address of a canonical list nothing is listed. -/
theorem memory_read_below {lo a : Nat} {m : List Host.Cell} (w : Memory.wfFrom lo m = true)
    (h : a < lo) : Memory.read m a = Memory.unlisted := by
  induction m generalizing lo with
  | nil => rfl
  | cons c rest ih =>
    obtain ⟨k, v⟩ := c
    simp only [Memory.wfFrom, Bool.and_eq_true, decide_eq_true_eq] at w
    rw [Memory.read, if_neg (by omega)]
    exact ih w.2 (by omega)

theorem memory_write_wfFrom {lo a : Nat} {v : Byte} {m : List Host.Cell}
    (w : Memory.wfFrom lo m = true) (hlo : lo ≤ a) (ha : a < 256) :
    Memory.wfFrom lo (Memory.write m a v) = true := by
  induction m generalizing lo with
  | nil =>
    unfold Memory.write
    split <;> simp [Memory.wfFrom, *]
  | cons c rest ih =>
    obtain ⟨k, u⟩ := c
    have w0 := w
    simp only [Memory.wfFrom, Bool.and_eq_true, decide_eq_true_eq] at w
    obtain ⟨⟨⟨h1, h2⟩, h3⟩, h4⟩ := w
    unfold Memory.write
    split
    · split
      · exact w0
      · simp only [Memory.wfFrom, Bool.and_eq_true, decide_eq_true_eq]
        exact ⟨⟨⟨hlo, ha⟩, ‹_›⟩, ⟨⟨by omega, h2⟩, h3⟩, h4⟩
    · split
      · split
        · exact memory_wfFrom_mono (by omega) h4
        · subst_vars
          simp only [Memory.wfFrom, Bool.and_eq_true, decide_eq_true_eq]
          exact ⟨⟨⟨hlo, ha⟩, ‹_›⟩, h4⟩
      · simp only [Memory.wfFrom, Bool.and_eq_true, decide_eq_true_eq]
        exact ⟨⟨⟨h1, h2⟩, h3⟩, ih h4 (by omega)⟩

/-- Writing a byte keeps the canonical form. -/
theorem memory_write_wf {a : Nat} {v : Byte} {m : List Host.Cell} (w : Memory.wf m = true)
    (ha : a < 256) : Memory.wf (Memory.write m a v) = true :=
  memory_write_wfFrom w (Nat.zero_le a) ha

theorem memory_read_write_same_from {lo a : Nat} {v : Byte} {m : List Host.Cell}
    (w : Memory.wfFrom lo m = true) : Memory.read (Memory.write m a v) a = v := by
  induction m generalizing lo with
  | nil =>
    unfold Memory.write
    split <;> simp [Memory.read, *]
  | cons c rest ih =>
    obtain ⟨k, u⟩ := c
    have w0 := w
    simp only [Memory.wfFrom, Bool.and_eq_true, decide_eq_true_eq] at w
    obtain ⟨⟨⟨h1, h2⟩, h3⟩, h4⟩ := w
    unfold Memory.write
    split
    · split
      · have w1 : Memory.wfFrom k ((k, u) :: rest) = true := by
          simp only [Memory.wfFrom, Bool.and_eq_true, decide_eq_true_eq]
          exact ⟨⟨⟨Nat.le_refl k, h2⟩, h3⟩, h4⟩
        rw [memory_read_below w1 (by omega)]
        simp_all
      · simp [Memory.read]
    · split
      · split
        · rw [memory_read_below h4 (by omega)]
          simp_all
        · simp [Memory.read]
      · rw [Memory.read, if_neg (by omega)]
        exact ih h4

/-- A read after a write to the same register gives the byte written. -/
theorem memory_read_write_same {a : Nat} {v : Byte} {m : List Host.Cell} (w : Memory.wf m = true) :
    Memory.read (Memory.write m a v) a = v :=
  memory_read_write_same_from w

/-- A write leaves every other register alone. -/
theorem memory_read_write_other {a b : Nat} {v : Byte} {m : List Host.Cell} (h : b ≠ a) :
    Memory.read (Memory.write m a v) b = Memory.read m b := by
  induction m with
  | nil =>
    unfold Memory.write
    split
    · rfl
    · simp [Memory.read, Ne.symm h]
  | cons c rest ih =>
    obtain ⟨k, u⟩ := c
    unfold Memory.write
    split
    · split
      · rfl
      · simp [Memory.read, Ne.symm h]
    · split
      · subst_vars
        split
        · simp [Memory.read, Ne.symm h]
        · simp [Memory.read, Ne.symm h]
      · simp only [Memory.read, ih]

/-- The registers MOCK starts with are in canonical form. -/
theorem mock_initial_wf : Memory.wf Mock.initial.reg = true := by decide

/-- The registers at reset are in canonical form. -/
theorem reset_mem_wf : Memory.wf State.reset.mock.reg = true := by decide

@[simp] theorem mock_set_ph (m : Mock) (a v : Byte) : (m.set a v).ph = m.ph := rfl
@[simp] theorem mock_set_ptr (m : Mock) (a v : Byte) : (m.set a v).ptr = m.ptr := rfl
@[simp] theorem mock_set_ins (m : Mock) (a v : Byte) : (m.set a v).ins = m.ins := rfl
@[simp] theorem mock_set_bma (m : Mock) (a v : Byte) : (m.set a v).bma = m.bma := rfl
@[simp] theorem mock_set_bmm (m : Mock) (a v : Byte) : (m.set a v).bmm = m.bmm := rfl
@[simp] theorem mock_sel_reg (m : Mock) : m.sel.reg = m.reg := rfl
@[simp] theorem mock_des_reg (m : Mock) : m.des.reg = m.reg := rfl

theorem mock_set_wf {m : Mock} {a v : Byte} (w : Memory.wf m.reg = true) :
    Memory.wf (m.set a v).reg = true :=
  memory_write_wf w a.isLt

theorem mock_get_set_same {m : Mock} {a v : Byte} (w : Memory.wf m.reg = true) :
    (m.set a v).get a = v :=
  memory_read_write_same w

theorem mock_get_set_other {m : Mock} {a b v : Byte} (h : b ≠ a) : (m.set a v).get b = m.get b :=
  memory_read_write_other fun e => h (BitVec.eq_of_toNat_eq e)

@[simp] theorem mock_echoMode_ph (p : Params) (a : Byte) (m : Mock) : (m.echoMode p a).ph = m.ph := by
  unfold Mock.echoMode; split <;> rfl

theorem mock_echoMode_wf {p : Params} {a : Byte} {m : Mock} (w : Memory.wf m.reg = true) :
    Memory.wf (m.echoMode p a).reg = true := by
  unfold Mock.echoMode
  split
  · exact mock_set_wf w
  · exact w

theorem mock_bitModify_wf {p : Params} {t : Byte} {m : Mock} (w : Memory.wf m.reg = true) :
    Memory.wf (m.bitModify p t).reg = true :=
  mock_echoMode_wf (mock_set_wf w)

theorem mock_requestToSend_wf {p : Params} {n : Byte} {m : Mock} (w : Memory.wf m.reg = true) :
    Memory.wf (m.requestToSend p n).reg = true :=
  mock_set_wf w

theorem mock_resetRegs_wf {p : Params} {m : Mock} : Memory.wf (m.resetRegs p).reg = true :=
  mock_set_wf (mock_set_wf (m := { m with reg := [] }) rfl)

theorem mock_opcode_wf {p : Params} {op : WireOp} {m : Mock} (w : Memory.wf m.reg = true) :
    Memory.wf (Mock.opcode p op m).reg = true := by
  cases op with
  | reset => exact mock_resetRegs_wf
  | rts0 => exact mock_requestToSend_wf w
  | rts1 => exact mock_requestToSend_wf w
  | rts2 => exact mock_requestToSend_wf w
  | _ => exact w

/-- An exchange keeps MOCK's registers in canonical form. -/
theorem mock_xchg_wf {p : Params} {t : Byte} {m : Mock} (w : Memory.wf m.reg = true) :
    Memory.wf (Mock.xchg p t m).2.reg = true := by
  unfold Mock.xchg
  split
  · split
    · exact mock_opcode_wf w
    · exact w
  · split
    · exact w
    · split <;> exact w
  · exact w
  · exact mock_echoMode_wf (mock_set_wf w)
  · exact w
  · exact mock_bitModify_wf w
  · exact w
  · exact w
  · exact w
  · exact w

theorem mock_setBlock_wf {a : Byte} {vs : List Byte} {m : Mock} (w : Memory.wf m.reg = true) :
    Memory.wf (Mock.setBlock a vs m).reg = true := by
  induction vs generalizing a m with
  | nil => exact w
  | cons v vs ih => exact ih (mock_set_wf w)

/-- A delivery keeps MOCK's registers in canonical form. -/
theorem mock_deliver_wf {p : Params} {n : Fin 3} {b : Fin 2} {m : Mock} (w : Memory.wf m.reg = true) :
    Memory.wf (m.deliver p n b).reg = true :=
  mock_set_wf (mock_set_wf (mock_set_wf (mock_setBlock_wf w)))

end Sys2Proof.Machine
end

