-- ==== Sys2Proof/Laws/State.lean ====
section
/-! SUPPORT. One lemma per field per update of State, so that no later proof unfolds a record update. -/

namespace Sys2Proof.Machine

variable (s : State)

@[simp] theorem select_params : (s.select).params = s.params := rfl
@[simp] theorem select_cs : (s.select).cs = .selected := rfl
@[simp] theorem select_status : (s.select).status = s.status := rfl
@[simp] theorem select_sf : (s.select).sf = s.sf := rfl
@[simp] theorem select_cur : (s.select).cur = s.cur := rfl
@[simp] theorem select_seq : (s.select).seq = s.seq := rfl
@[simp] theorem select_rx : (s.select).rx = s.rx := rfl
@[simp] theorem select_result : (s.select).result = s.result := rfl
@[simp] theorem select_trace : (s.select).trace = s.trace ++ [.sel] := rfl
@[simp] theorem select_moves : (s.select).moves = s.moves := rfl
@[simp] theorem select_env : (s.select).env = s.env := rfl
@[simp] theorem select_answers : (s.select).answers = s.answers := rfl
@[simp] theorem select_fresh : (s.select).fresh = s.fresh := rfl

@[simp] theorem deselect_params : (s.deselect).params = s.params := rfl
@[simp] theorem deselect_cs : (s.deselect).cs = .deselected := rfl
@[simp] theorem deselect_status : (s.deselect).status = s.status := rfl
@[simp] theorem deselect_sf : (s.deselect).sf = s.sf := rfl
@[simp] theorem deselect_cur : (s.deselect).cur = s.cur := rfl
@[simp] theorem deselect_seq : (s.deselect).seq = s.seq := rfl
@[simp] theorem deselect_rx : (s.deselect).rx = s.rx := rfl
@[simp] theorem deselect_result : (s.deselect).result = s.result := rfl
@[simp] theorem deselect_trace : (s.deselect).trace = s.trace ++ [.des] := rfl
@[simp] theorem deselect_moves : (s.deselect).moves = s.moves := rfl
@[simp] theorem deselect_env : (s.deselect).env = s.env := rfl
@[simp] theorem deselect_answers : (s.deselect).answers = s.answers := rfl
@[simp] theorem deselect_fresh : (s.deselect).fresh = s.fresh := rfl

@[simp] theorem complete_params (code : BitVec 3) (res : Result) : (s.complete code res).params = s.params := rfl
@[simp] theorem complete_cs (code : BitVec 3) (res : Result) : (s.complete code res).cs = s.cs := rfl
@[simp] theorem complete_status (code : BitVec 3) (res : Result) : (s.complete code res).status = code := rfl
@[simp] theorem complete_sf (code : BitVec 3) (res : Result) : (s.complete code res).sf = s.sf := rfl
@[simp] theorem complete_cur (code : BitVec 3) (res : Result) : (s.complete code res).cur = none := rfl
@[simp] theorem complete_seq (code : BitVec 3) (res : Result) : (s.complete code res).seq = 0 := rfl
@[simp] theorem complete_rx (code : BitVec 3) (res : Result) : (s.complete code res).rx = [] := rfl
@[simp] theorem complete_result (code : BitVec 3) (res : Result) : (s.complete code res).result = res := rfl
@[simp] theorem complete_mock (code : BitVec 3) (res : Result) : (s.complete code res).mock = s.mock := rfl
@[simp] theorem complete_trace (code : BitVec 3) (res : Result) : (s.complete code res).trace = s.trace := rfl
@[simp] theorem complete_moves (code : BitVec 3) (res : Result) : (s.complete code res).moves = s.moves := rfl
@[simp] theorem complete_env (code : BitVec 3) (res : Result) : (s.complete code res).env = s.env := rfl
@[simp] theorem complete_answers (code : BitVec 3) (res : Result) : (s.complete code res).answers = s.answers := rfl
@[simp] theorem complete_fresh (code : BitVec 3) (res : Result) : (s.complete code res).fresh = s.fresh := rfl

@[simp] theorem reject_params (code : BitVec 3) : (s.reject code).params = s.params := rfl
@[simp] theorem reject_cs (code : BitVec 3) : (s.reject code).cs = s.cs := rfl
@[simp] theorem reject_status (code : BitVec 3) : (s.reject code).status = code := rfl
@[simp] theorem reject_sf (code : BitVec 3) : (s.reject code).sf = s.sf := rfl
@[simp] theorem reject_cur (code : BitVec 3) : (s.reject code).cur = none := rfl
@[simp] theorem reject_seq (code : BitVec 3) : (s.reject code).seq = 0 := rfl
@[simp] theorem reject_rx (code : BitVec 3) : (s.reject code).rx = [] := rfl
@[simp] theorem reject_result (code : BitVec 3) : (s.reject code).result = .none := rfl
@[simp] theorem reject_mock (code : BitVec 3) : (s.reject code).mock = s.mock := rfl
@[simp] theorem reject_trace (code : BitVec 3) : (s.reject code).trace = s.trace := rfl
@[simp] theorem reject_moves (code : BitVec 3) : (s.reject code).moves = s.moves := rfl
@[simp] theorem reject_env (code : BitVec 3) : (s.reject code).env = s.env := rfl
@[simp] theorem reject_answers (code : BitVec 3) : (s.reject code).answers = s.answers := rfl
@[simp] theorem reject_fresh (code : BitVec 3) : (s.reject code).fresh = s.fresh := rfl

@[simp] theorem loadScratch_params (rem : Bool) (bs : List Byte) : (s.loadScratch rem bs).params = s.params := rfl
@[simp] theorem loadScratch_cs (rem : Bool) (bs : List Byte) : (s.loadScratch rem bs).cs = s.cs := rfl
@[simp] theorem loadScratch_status (rem : Bool) (bs : List Byte) : (s.loadScratch rem bs).status = s.status := rfl
@[simp] theorem loadScratch_sf (rem : Bool) (bs : List Byte) : (s.loadScratch rem bs).sf = decodeFrame rem bs s.fresh := rfl
@[simp] theorem loadScratch_cur (rem : Bool) (bs : List Byte) : (s.loadScratch rem bs).cur = s.cur := rfl
@[simp] theorem loadScratch_seq (rem : Bool) (bs : List Byte) : (s.loadScratch rem bs).seq = s.seq := rfl
@[simp] theorem loadScratch_rx (rem : Bool) (bs : List Byte) : (s.loadScratch rem bs).rx = s.rx := rfl
@[simp] theorem loadScratch_result (rem : Bool) (bs : List Byte) : (s.loadScratch rem bs).result = s.result := rfl
@[simp] theorem loadScratch_mock (rem : Bool) (bs : List Byte) : (s.loadScratch rem bs).mock = s.mock := rfl
@[simp] theorem loadScratch_trace (rem : Bool) (bs : List Byte) : (s.loadScratch rem bs).trace = s.trace := rfl
@[simp] theorem loadScratch_moves (rem : Bool) (bs : List Byte) : (s.loadScratch rem bs).moves = s.moves := rfl
@[simp] theorem loadScratch_env (rem : Bool) (bs : List Byte) : (s.loadScratch rem bs).env = s.env := rfl
@[simp] theorem loadScratch_answers (rem : Bool) (bs : List Byte) : (s.loadScratch rem bs).answers = s.answers := rfl
@[simp] theorem loadScratch_fresh (rem : Bool) (bs : List Byte) : (s.loadScratch rem bs).fresh = if rem then s.fresh + 8 else s.fresh := rfl

@[simp] theorem deliver_params (n : Fin 3) (m : Fin 2) : (s.deliver n m).params = s.params := rfl
@[simp] theorem deliver_cs (n : Fin 3) (m : Fin 2) : (s.deliver n m).cs = s.cs := rfl
@[simp] theorem deliver_status (n : Fin 3) (m : Fin 2) : (s.deliver n m).status = s.status := rfl
@[simp] theorem deliver_sf (n : Fin 3) (m : Fin 2) : (s.deliver n m).sf = s.sf := rfl
@[simp] theorem deliver_cur (n : Fin 3) (m : Fin 2) : (s.deliver n m).cur = s.cur := rfl
@[simp] theorem deliver_seq (n : Fin 3) (m : Fin 2) : (s.deliver n m).seq = s.seq := rfl
@[simp] theorem deliver_rx (n : Fin 3) (m : Fin 2) : (s.deliver n m).rx = s.rx := rfl
@[simp] theorem deliver_result (n : Fin 3) (m : Fin 2) : (s.deliver n m).result = s.result := rfl
@[simp] theorem deliver_mock (n : Fin 3) (m : Fin 2) : (s.deliver n m).mock = s.mock.deliver s.params n m := rfl
@[simp] theorem deliver_trace (n : Fin 3) (m : Fin 2) : (s.deliver n m).trace = s.trace := rfl
@[simp] theorem deliver_moves (n : Fin 3) (m : Fin 2) : (s.deliver n m).moves = s.moves := rfl
@[simp] theorem deliver_env (n : Fin 3) (m : Fin 2) : (s.deliver n m).env = s.env := rfl
@[simp] theorem deliver_answers (n : Fin 3) (m : Fin 2) : (s.deliver n m).answers = s.answers := rfl
@[simp] theorem deliver_fresh (n : Fin 3) (m : Fin 2) : (s.deliver n m).fresh = s.fresh := rfl

@[simp] theorem present_params (w : Presented) : (s.present w).params = s.params := rfl
@[simp] theorem present_cs (w : Presented) : (s.present w).cs = s.cs := rfl
@[simp] theorem present_status (w : Presented) : (s.present w).status = s.status := rfl
@[simp] theorem present_sf (w : Presented) : (s.present w).sf = s.sf := rfl
@[simp] theorem present_cur (w : Presented) : (s.present w).cur = none := rfl
@[simp] theorem present_seq (w : Presented) : (s.present w).seq = s.seq := rfl
@[simp] theorem present_rx (w : Presented) : (s.present w).rx = s.rx := rfl
@[simp] theorem present_result (w : Presented) : (s.present w).result = s.result := rfl
@[simp] theorem present_trace (w : Presented) : (s.present w).trace = s.trace := rfl
@[simp] theorem present_moves (w : Presented) : (s.present w).moves = .issue w :: s.moves := rfl
@[simp] theorem present_env (w : Presented) : (s.present w).env = s.env := rfl
@[simp] theorem present_answers (w : Presented) : (s.present w).answers = s.answers := rfl
@[simp] theorem present_fresh (w : Presented) : (s.present w).fresh = s.fresh := rfl

@[simp] theorem blockReset_params : s.blockReset.params = s.params := by
  unfold State.blockReset; split <;> rfl
@[simp] theorem blockReset_cs : s.blockReset.cs = .deselected := rfl
@[simp] theorem blockReset_status : s.blockReset.status = 0 := rfl
@[simp] theorem blockReset_sf : s.blockReset.sf = ScratchFrame.reset := rfl
@[simp] theorem blockReset_cur : s.blockReset.cur = none := rfl
@[simp] theorem blockReset_seq : s.blockReset.seq = 0 := rfl
@[simp] theorem blockReset_rx : s.blockReset.rx = [] := rfl
@[simp] theorem blockReset_result : s.blockReset.result = .none := rfl
@[simp] theorem blockReset_moves : s.blockReset.moves = s.moves := by
  unfold State.blockReset; split <;> rfl
@[simp] theorem blockReset_env : s.blockReset.env = s.env := by
  unfold State.blockReset; split <;> rfl
@[simp] theorem blockReset_answers : s.blockReset.answers = s.answers := by
  unfold State.blockReset; split <;> rfl
@[simp] theorem blockReset_fresh : s.blockReset.fresh = s.fresh := by
  unfold State.blockReset; split <;> rfl

end Sys2Proof.Machine
end

