-- ==== Sys2Proof/Laws/Transport.lean ====
section
/-! SUPPORT. What the transport operations can do, said once: an answer touches the environment alone, and a bracket
issues its events in order, whoever answers. -/

namespace Sys2Proof.Machine

open Sys2Proof.Config

/-- The bytes a list of exchanges sends, with `d` in read positions. -/
def sentOf (d : Byte) : List Xfer → List Byte
  | [] => []
  | .send t :: rest => t :: sentOf d rest
  | .recv :: rest => d :: sentOf d rest

/-- The answers that stand in read positions. -/
def recvOf : List Xfer → List Byte → List Byte
  | [], _ => []
  | _ :: _, [] => []
  | .send _ :: rest, _ :: rs => recvOf rest rs
  | .recv :: rest, r :: rs => r :: recvOf rest rs

@[simp] theorem sentOf_length (d : Byte) (xs : List Xfer) : (sentOf d xs).length = xs.length := by
  induction xs with
  | nil => rfl
  | cons x rest ih => cases x <;> simp [sentOf, ih]

@[simp] theorem sentOf_map_send (d : Byte) (bs : List Byte) : sentOf d (bs.map .send) = bs := by
  induction bs with
  | nil => rfl
  | cons b bs ih => simp [sentOf, ih]

@[simp] theorem sentOf_replicate_recv (d : Byte) (k : Nat) :
    sentOf d (List.replicate k .recv) = List.replicate k d := by
  induction k with
  | zero => rfl
  | succ k ih => simp [List.replicate_succ, sentOf, ih]

@[simp] theorem recvOf_map_send (bs rs : List Byte) : recvOf (bs.map .send) rs = [] := by
  induction bs generalizing rs with
  | nil => rfl
  | cons b bs ih => cases rs <;> simp [recvOf, ih]

theorem recvOf_replicate_recv {k : Nat} {rs : List Byte} (h : rs.length = k) :
    recvOf (List.replicate k .recv) rs = rs := by
  induction k generalizing rs with
  | zero => cases rs <;> simp_all [recvOf]
  | succ k ih =>
    cases rs with
    | nil => simp at h
    | cons r rs => simp only [List.replicate_succ, recvOf, ih (by simpa using h)]

/-- An answer changes the environment alone. -/
theorem answer_spec (t : Byte) (s : State) :
    ∃ mock answers fresh,
      (s.answer t).2 = { s with mock := mock, answers := answers, fresh := fresh } := by
  unfold State.answer
  split
  · exact ⟨_, _, _, rfl⟩
  · split <;> exact ⟨_, _, _, rfl⟩

/-- An exchange changes the environment and adds its event to the trace. -/
theorem xchg_spec (t : Byte) (s : State) :
    ∃ mock answers fresh,
      (s.xchg t).2 = { s with
        mock := mock, answers := answers, fresh := fresh, trace := s.trace ++ [.x t (s.xchg t).1] } := by
  obtain ⟨m, a, f, h⟩ := answer_spec t s
  refine ⟨m, a, f, ?_⟩
  simp only [State.xchg, h]

/-- The exchanges of a bracket issue one event each, in order, whatever the answers are. -/
theorem exchanges_spec (xs : List Xfer) (s : State) :
    ∃ rs mock answers fresh, rs.length = xs.length ∧
      exchanges xs s = (recvOf xs rs,
        { s with
          mock := mock, answers := answers, fresh := fresh
          trace := s.trace ++ List.zipWith .x (sentOf s.params.dummyTx xs) rs }) := by
  induction xs generalizing s with
  | nil => exact ⟨[], s.mock, s.answers, s.fresh, rfl, by simp [exchanges, recvOf, sentOf]⟩
  | cons x rest ih =>
    cases x with
    | send t =>
      obtain ⟨m, a, f, h⟩ := xchg_spec t s
      obtain ⟨rs, m', a', f', hl, h'⟩ := ih (s.xchg t).2
      refine ⟨(s.xchg t).1 :: rs, m', a', f', by simp [hl], ?_⟩
      simp only [exchanges]
      rw [h', h]
      simp [recvOf, sentOf]
    | recv =>
      obtain ⟨m, a, f, h⟩ := xchg_spec s.params.dummyTx s
      obtain ⟨rs, m', a', f', hl, h'⟩ := ih (s.xchg s.params.dummyTx).2
      refine ⟨(s.xchg s.params.dummyTx).1 :: rs, m', a', f', by simp [hl], ?_⟩
      simp only [exchanges]
      rw [h', h]
      simp [recvOf, sentOf]

/-- A bracket issues `SEL`, its exchanges in order, `DES`, and leaves the chip deselected (R13, R28). -/
theorem bracket_spec (xs : List Xfer) (s : State) :
    ∃ rs mock answers fresh, rs.length = xs.length ∧
      s.bracket xs = (recvOf xs rs,
        { s with
          cs := .deselected, mock := mock, answers := answers, fresh := fresh
          trace := s.trace ++ bracketEvents (sentOf s.params.dummyTx xs) rs }) := by
  obtain ⟨rs, m, a, f, hl, h⟩ := exchanges_spec xs s.select
  refine ⟨rs, (match s.env with | .mock => m.des | .oracle => m), a, f, hl, ?_⟩
  simp only [State.bracket, h, bracketEvents]
  cases he : s.env <;> simp [State.deselect, State.select, he]

/-- A primitive operation that is not rejected issues its one bracket and completes with `OK` (R128). -/
theorem primitive_spec (xs : List Xfer) (res : List Byte → Result) (s : State) :
    ∃ rs, rs.length = xs.length ∧
      s.Ran (bracketEvents (sentOf s.params.dummyTx xs) rs) (res (recvOf xs rs)) (s.primitive xs res) := by
  obtain ⟨rs, m, a, f, hl, h⟩ := bracket_spec xs s
  refine ⟨rs, hl, m, a, f, ?_⟩
  simp only [State.primitive, h, State.complete, Status.ok]

/-- With answers fixed in advance for all its exchanges, the exchanges consume exactly those, in order. -/
theorem exchanges_oracle {xs : List Xfer} {s : State} {rs rest : List Byte} (he : s.env = .oracle)
    (ha : s.answers = rs ++ rest) (hl : rs.length = xs.length) :
    exchanges xs s = (recvOf xs rs,
      { s with
        answers := rest
        trace := s.trace ++ List.zipWith .x (sentOf s.params.dummyTx xs) rs }) := by
  induction xs generalizing s rs with
  | nil =>
    cases rs with
    | nil =>
      have e : s.answers = rest := ha
      simp [exchanges, recvOf, sentOf, ← e]
    | cons r rs => simp at hl
  | cons x xs ih =>
    cases rs with
    | nil => simp at hl
    | cons r rs =>
      have hx : ∀ t, s.xchg t = (r, { s with answers := rs ++ rest, trace := s.trace ++ [.x t r] }) := by
        intro t
        simp [State.xchg, State.answer, he, ha]
      cases x with
      | send t =>
        have e := ih (s := { s with answers := rs ++ rest, trace := s.trace ++ [.x t r] })
          (rs := rs) he rfl (by simpa using hl)
        simp only [exchanges, hx]
        rw [e]
        simp [recvOf, sentOf]
      | recv =>
        have e := ih (s := { s with answers := rs ++ rest, trace := s.trace ++ [.x s.params.dummyTx r] })
          (rs := rs) he rfl (by simpa using hl)
        simp only [exchanges, hx]
        rw [e]
        simp [recvOf, sentOf]

/-- A bracket whose answers are fixed in advance (R14, "for every oracle answer sequence"). -/
theorem bracket_oracle {xs : List Xfer} {s : State} {rs rest : List Byte} (he : s.env = .oracle)
    (ha : s.answers = rs ++ rest) (hl : rs.length = xs.length) :
    s.bracket xs = (recvOf xs rs,
      { s with
        cs := .deselected, answers := rest
        trace := s.trace ++ bracketEvents (sentOf s.params.dummyTx xs) rs }) := by
  have h := exchanges_oracle (xs := xs) (s := s.select) (rs := rs) (rest := rest) he ha hl
  simp only [State.bracket, h]
  simp [State.deselect, State.select, bracketEvents, he]

/-- What a list of sent bytes does to MOCK within a bracket. -/
def Mock.feed (p : Params) : List Byte → Mock → List Byte × Mock
  | [], m => ([], m)
  | t :: ts, m =>
    let a := Mock.xchg p t m
    let r := Mock.feed p ts a.2
    (a.1 :: r.1, r.2)

/-- Where MOCK answers, the exchanges of a bracket feed it the sent bytes. -/
theorem exchanges_mock {xs : List Xfer} {s : State} (he : s.env = .mock) :
    exchanges xs s =
      (recvOf xs (Mock.feed s.params (sentOf s.params.dummyTx xs) s.mock).1,
       { s with
         mock := (Mock.feed s.params (sentOf s.params.dummyTx xs) s.mock).2
         trace := s.trace ++ List.zipWith .x (sentOf s.params.dummyTx xs)
           (Mock.feed s.params (sentOf s.params.dummyTx xs) s.mock).1 }) := by
  induction xs generalizing s with
  | nil => simp [exchanges, recvOf, sentOf, Mock.feed]
  | cons x xs ih =>
    have hx : ∀ t, s.xchg t = ((Mock.xchg s.params t s.mock).1,
        { s with
          mock := (Mock.xchg s.params t s.mock).2
          trace := s.trace ++ [.x t (Mock.xchg s.params t s.mock).1] }) := by
      intro t
      simp [State.xchg, State.answer, he]
    cases x with
    | send t =>
      simp only [exchanges, hx]
      rw [ih (s := { s with
        mock := (Mock.xchg s.params t s.mock).2
        trace := s.trace ++ [.x t (Mock.xchg s.params t s.mock).1] }) he]
      simp [recvOf, sentOf, Mock.feed]
    | recv =>
      simp only [exchanges, hx]
      rw [ih (s := { s with
        mock := (Mock.xchg s.params s.params.dummyTx s.mock).2
        trace := s.trace ++ [.x s.params.dummyTx (Mock.xchg s.params s.params.dummyTx s.mock).1] }) he]
      simp [recvOf, sentOf, Mock.feed]

/-- Where MOCK answers, a bracket is `SEL`, the sent bytes, `DES` at MOCK (R71). -/
theorem bracket_mock {xs : List Xfer} {s : State} (he : s.env = .mock) :
    s.bracket xs =
      (recvOf xs (Mock.feed s.params (sentOf s.params.dummyTx xs) s.mock.sel).1,
       { s with
         cs := .deselected
         mock := (Mock.feed s.params (sentOf s.params.dummyTx xs) s.mock.sel).2.des
         trace := s.trace ++ bracketEvents (sentOf s.params.dummyTx xs)
           (Mock.feed s.params (sentOf s.params.dummyTx xs) s.mock.sel).1 }) := by
  have h := exchanges_mock (xs := xs) (s := s.select) he
  have hm : s.select.mock = s.mock.sel := by simp [State.select, he]
  simp only [State.bracket, h, hm]
  simp [State.deselect, State.select, bracketEvents, he]

theorem mock_feed_wf {p : Params} {ts : List Byte} {m : Mock} (w : Memory.wf m.reg = true) :
    Memory.wf (Mock.feed p ts m).2.reg = true := by
  induction ts generalizing m with
  | nil => exact w
  | cons t ts ih => exact ih (mock_xchg_wf w)

theorem answer_memOk {t : Byte} {s : State} (w : s.memOk) : (s.answer t).2.memOk := by
  unfold State.answer
  split
  · exact mock_xchg_wf w
  · split <;> exact w

theorem xchg_memOk {t : Byte} {s : State} (w : s.memOk) : (s.xchg t).2.memOk :=
  answer_memOk (t := t) w

theorem select_memOk {s : State} (w : s.memOk) : s.select.memOk := by
  unfold State.memOk State.select
  cases s.env <;> exact w

theorem deselect_memOk {s : State} (w : s.memOk) : s.deselect.memOk := by
  unfold State.memOk State.deselect
  cases s.env <;> exact w

theorem exchanges_memOk {xs : List Xfer} {s : State} (w : s.memOk) : (exchanges xs s).2.memOk := by
  induction xs generalizing s with
  | nil => exact w
  | cons x xs ih =>
    cases x with
    | send t => exact ih (xchg_memOk w)
    | recv => exact ih (xchg_memOk w)

/-- A bracket keeps the registers in canonical form. -/
theorem bracket_memOk {xs : List Xfer} {s : State} (w : s.memOk) : (s.bracket xs).2.memOk :=
  deselect_memOk (exchanges_memOk (select_memOk w))

end Sys2Proof.Machine
end

