-- ==== Sys2Proof/Laws/Exec.lean ====
section
/-! SUPPORT. What the operations above the transport can do, said once: brackets neither read nor change the block's
bookkeeping, a primitive operation and a rejection leave it as its completion writes it, and exec always answers a next
state. -/

namespace Sys2Proof.Machine

/-- A state with the block's bookkeeping (all that a bracket neither reads nor changes) replaced by that of `b`. -/
def State.keeping (s b : State) : State :=
  { s with
    status := b.status, sf := b.sf, cur := b.cur, seq := b.seq, rx := b.rx
    result := b.result, moves := b.moves }

theorem answer_keeping (t : Byte) (s b : State) :
    (s.keeping b).answer t = ((s.answer t).1, (s.answer t).2.keeping b) := by
  unfold State.answer State.keeping
  cases s.env
  · cases s.answers <;> rfl
  · rfl

theorem xchg_keeping (t : Byte) (s b : State) :
    (s.keeping b).xchg t = ((s.xchg t).1, (s.xchg t).2.keeping b) := by
  simp only [State.xchg, answer_keeping]
  rfl

theorem exchanges_keeping (xs : List Xfer) (s b : State) :
    exchanges xs (s.keeping b) = ((exchanges xs s).1, (exchanges xs s).2.keeping b) := by
  induction xs generalizing s with
  | nil => rfl
  | cons x xs ih =>
    cases x with
    | send t => simp only [exchanges, xchg_keeping, ih]
    | recv =>
      have e : (s.keeping b).params = s.params := rfl
      simp only [exchanges, e, xchg_keeping, ih]

/-- A bracket neither reads nor changes the block's bookkeeping (R24, R26, R29). -/
theorem bracket_keeping (xs : List Xfer) (s b : State) :
    (s.keeping b).bracket xs = ((s.bracket xs).1, (s.bracket xs).2.keeping b) := by
  have e : (s.keeping b).select = s.select.keeping b := rfl
  simp only [State.bracket, e, exchanges_keeping]
  rfl

/-- A primitive operation from another bookkeeping differs in `SF` and the host's moves alone. -/
theorem primitive_keeping (xs : List Xfer) (res : List Byte → Result) (s b : State) :
    (s.keeping b).primitive xs res = { s.primitive xs res with sf := b.sf, moves := b.moves } := by
  simp only [State.primitive, bracket_keeping]
  rfl

/-- No instruction is a fault or a refusal: exec answers a next state, from every state (R210, R215). -/
theorem exec_next (i : Instr) (s : State) : ∃ t, exec i s = .next t := by
  cases i with
  | write a len w => simp only [exec, execWrite]; split <;> exact ⟨_, rfl⟩
  | rts n => simp only [exec, execRts]; split <;> exact ⟨_, rfl⟩
  | rdrxb n pt len => simp only [exec, execRdrxb]; (repeat' split) <;> exact ⟨_, rfl⟩
  | setsid n id => simp only [exec, execSetsid]; (repeat' split) <;> exact ⟨_, rfl⟩
  | seteid n id => simp only [exec, execSeteid]; (repeat' split) <;> exact ⟨_, rfl⟩
  | txframe n f => simp only [exec, execTxframe]; (repeat' split) <;> exact ⟨_, rfl⟩
  | rxframe n => simp only [exec, execRxframe]; split <;> exact ⟨_, rfl⟩
  | wWrite a bs => simp only [exec, execWWrite]; split <;> exact ⟨_, rfl⟩
  | reset | read | bitmod | rdstat | rxstat | wReset | wRead | wBitmod | wRdstat | wRxstat | wRts0 | wRts1 | wRts2
  | wRdrxb0Id | wRdrxb0Data | wRdrxb1Id | wRdrxb1Data => exact ⟨_, rfl⟩

/-- What the block's reset adds to the trace: the event that deselects a selected chip (R242). -/
theorem blockReset_trace (s : State) :
    s.blockReset.trace = s.trace ++ if s.cs = .selected then [.des] else [] := by
  unfold State.blockReset
  cases h : s.cs <;> simp [State.deselect]

/-- Acceptance: rejected at once, or latched with nothing issued (R20, R29, R210). -/
theorem accept_spec (i : Instr) (s : State) :
    (∃ code, Instr.rejection i = some code ∧ s.accept i = s.rejectedWith code) ∨
    (Instr.rejection i = none ∧ s.accept i = { s with cur := some i, seq := 0, rx := [] }) := by
  unfold State.accept
  cases h : Instr.rejection i with
  | none => exact .inr ⟨rfl, rfl⟩
  | some code => exact .inl ⟨code, rfl, rfl⟩

end Sys2Proof.Machine
end

