-- ==== Sys2Proof/Laws/Host.lean ====
section
/-! SUPPORT. What the host-level sequences are made of: running an instruction is taking the state exec answers, the mode
codes read back, and the bit-timing table falls back. -/

namespace Sys2Proof.Machine

open Sys2Proof.Config

/-- Running an instruction takes the state exec answers. -/
theorem exec_eq_run (i : Instr) (s : State) : exec i s = .next (s.run i) := by
  obtain ⟨t, h⟩ := exec_next i s
  simp only [State.run, h]

theorem mode_mem_all (m : Mode) : m ∈ Mode.all := by cases m <;> decide

/-- The mode a field is mapped back to has that field as its code (R182). -/
theorem code_of_mode? {c : ModeCodes} {v : BitVec 3} {m : Mode} (h : c.mode? v = some m) : c.code m = v := by
  have := List.find?_some h
  simpa using this

/-- A field has no mode exactly when it is no mode's code (R182, U17). -/
theorem mode?_eq_none {c : ModeCodes} {v : BitVec 3} : c.mode? v = none ↔ ∀ m, c.code m ≠ v := by
  simp only [ModeCodes.mode?, List.find?_eq_none, beq_iff_eq]
  exact ⟨fun h m => h m (mode_mem_all m), fun h m _ => h m⟩

/-- Where the codes are distinct, every mode's code is mapped back to it (R181, R182). -/
theorem mode?_code {c : ModeCodes} (h : ∀ m n, c.code m = c.code n → m = n) (m : Mode) :
    c.mode? (c.code m) = some m := by
  cases e : c.mode? (c.code m) with
  | none => exact absurd rfl (mode?_eq_none.1 e m)
  | some n => rw [h n m (code_of_mode? e)]

/-- "An unsupported rate at a given clock falls back to the 125 kbps triple for that clock" (R189). -/
theorem bitTiming_fallback {clock rate : Nat} (h : timingRow clock rate = none)
    (hp : ¬(clock = 8000 ∧ rate = 500)) : bitTiming clock rate = bitTiming clock 125 := by
  have h1 : bitTiming clock 125 = timing125 clock := by simp [bitTiming]
  rw [h1]
  unfold bitTiming
  rw [if_neg hp, h]
  split <;> rfl

end Sys2Proof.Machine
end

