-- ==== Sys2Proof/Laws/PerInstr.lean ====
section
/-! SUPPORT. A statement about every instruction as syntax, with one lemma per constructor: its encoding stands on the
level and under the code the opcode table lists for it (30_encoding.md R81, R82, R98). -/

namespace Sys2Proof.Laws.OpcodeListed

open Sys2Proof

/-- A presentation of the command port carries a code below 0xC (R81); a bracket begins with one of the thirteen listed
bytes (R82). -/
def listed : Presented → Bool
  | .command p => decide (p.op.toNat < 0xC)
  | .wire bytes => (bytes.head?.bind WireOp.ofByte?).isSome

/-- Whatever is sent in read positions, the encoding of the instruction carries a listed code. -/
def Statement (i : Instr) : Prop := ∀ dummy : Byte, listed (encode dummy i) = true

theorem reset : Statement (.reset) := fun _ => rfl
theorem read (a : Byte) : Statement (.read a) := fun _ => rfl
theorem write (a len : Byte) (w : Vector Byte 13) : Statement (.write a len w) := fun _ => rfl
theorem bitmod (a m v : Byte) : Statement (.bitmod a m v) := fun _ => rfl
theorem rdstat : Statement (.rdstat) := fun _ => rfl
theorem rxstat : Statement (.rxstat) := fun _ => rfl
theorem rts (n : Byte) : Statement (.rts n) := fun _ => rfl
theorem rdrxb (n : Byte) (pt : StartPoint) (len : Byte) : Statement (.rdrxb n pt len) := fun _ => rfl
theorem setsid (n : Byte) (id : IdOperand) : Statement (.setsid n id) := fun _ => rfl
theorem seteid (n : Byte) (id : IdOperand) : Statement (.seteid n id) := fun _ => rfl
theorem txframe (n : Byte) (f : CanFrame) : Statement (.txframe n f) := fun _ => rfl
theorem rxframe (n : Byte) : Statement (.rxframe n) := fun _ => rfl
theorem wReset : Statement (.wReset) := fun _ => rfl
theorem wRead (a : Byte) : Statement (.wRead a) := fun _ => rfl
theorem wWrite (a : Byte) (bs : List Byte) : Statement (.wWrite a bs) := fun _ => rfl
theorem wBitmod (a m v : Byte) : Statement (.wBitmod a m v) := fun _ => rfl
theorem wRdstat : Statement (.wRdstat) := fun _ => rfl
theorem wRxstat : Statement (.wRxstat) := fun _ => rfl
theorem wRts0 : Statement (.wRts0) := fun _ => rfl
theorem wRts1 : Statement (.wRts1) := fun _ => rfl
theorem wRts2 : Statement (.wRts2) := fun _ => rfl
theorem wRdrxb0Id (k : Nat) : Statement (.wRdrxb0Id k) := fun _ => rfl
theorem wRdrxb0Data (k : Nat) : Statement (.wRdrxb0Data k) := fun _ => rfl
theorem wRdrxb1Id (k : Nat) : Statement (.wRdrxb1Id k) := fun _ => rfl
theorem wRdrxb1Data (k : Nat) : Statement (.wRdrxb1Data k) := fun _ => rfl

end Sys2Proof.Laws.OpcodeListed
end

