-- ==== Sys2Proof/Tests/Slice0.lean ====
section
/-! SUPPORT. Small tests with expected results from spec/ (95_test_vectors.md, cited as V and E numbers; 30_encoding.md),
and a named witness for the hypotheses of each statement of Certificates/Slice0/Obligations.lean. -/

namespace Sys2Proof.Tests

open Sys2Proof Sys2Proof.Config Sys2Proof.Machine

/-! ## Well-formedness: an ill-formed term for each check (R83, R214) -/

theorem test_wf_write_empty : (Instr.wWrite 0x31 []).wf = false := by decide
theorem test_wf_write_fourteen : (Instr.wWrite 0x31 (List.replicate 14 0)).wf = false := by decide
theorem test_wf_rdrxb0Id : (Instr.wRdrxb0Id 0).wf = false ∧ (Instr.wRdrxb0Id 14).wf = false := by decide
theorem test_wf_rdrxb0Data : (Instr.wRdrxb0Data 0).wf = false ∧ (Instr.wRdrxb0Data 9).wf = false := by decide
theorem test_wf_rdrxb1Id : (Instr.wRdrxb1Id 0).wf = false ∧ (Instr.wRdrxb1Id 14).wf = false := by decide
theorem test_wf_rdrxb1Data : (Instr.wRdrxb1Data 0).wf = false ∧ (Instr.wRdrxb1Data 9).wf = false := by decide

/-! ## Decoding: every constructor by a word written out from R81 or R82 -/

/-- What a decoder gives, as comparable data. -/
def got (r : Except DecodeError Instr) : Option Instr :=
  match r with
  | .ok i => some i
  | .error _ => none

/-- A frame operand (R21). -/
def frame (ty : FrameType) (rem : Bool) (id : IdOperand) (len : Byte) (data : Vector Byte 8) : CanFrame :=
  ⟨ty, rem, id, len, data⟩

/-- A presentation of the command port with every operand field given. -/
def port (op : BitVec 4) : Port :=
  { op := op, idx := 0x01, addr := 0x2C, mask := 0xE0, val := 0x80, len := 0x02, wbuf := Vector.replicate 13 0x5A,
    pt := .data, frame := frame .extended true 0x12345678 8 (Vector.replicate 8 0xA5) }

theorem test_decode_reset : got (decodeCommand (port 0x0)) = some .reset := by decide
theorem test_decode_read : got (decodeCommand (port 0x1)) = some (.read 0x2C) := by decide
theorem test_decode_write :
    got (decodeCommand (port 0x2)) = some (.write 0x2C 0x02 (Vector.replicate 13 0x5A)) := by decide
theorem test_decode_bitmod : got (decodeCommand (port 0x3)) = some (.bitmod 0x2C 0xE0 0x80) := by decide
theorem test_decode_rdstat : got (decodeCommand (port 0x4)) = some .rdstat := by decide
theorem test_decode_rxstat : got (decodeCommand (port 0x5)) = some .rxstat := by decide
theorem test_decode_rts : got (decodeCommand (port 0x6)) = some (.rts 0x01) := by decide
theorem test_decode_rdrxb : got (decodeCommand (port 0x7)) = some (.rdrxb 0x01 .data 0x02) := by decide
theorem test_decode_setsid : got (decodeCommand (port 0x8)) = some (.setsid 0x01 0x12345678) := by decide
theorem test_decode_seteid : got (decodeCommand (port 0x9)) = some (.seteid 0x01 0x12345678) := by decide
theorem test_decode_txframe :
    got (decodeCommand (port 0xA)) =
      some (.txframe 0x01 (frame .extended true 0x12345678 8 (Vector.replicate 8 0xA5))) := by decide
theorem test_decode_rxframe : got (decodeCommand (port 0xB)) = some (.rxframe 0x01) := by decide
theorem test_decode_reserved :
    got (decodeCommand (port 0xC)) = none ∧ got (decodeCommand (port 0xF)) = none := by decide

theorem test_decode_wReset : got (decodeWire [0b1100_0000]) = some .wReset := by decide
theorem test_decode_wRead : got (decodeWire [0b0000_0011, 0x0E, 0x00]) = some (.wRead 0x0E) := by decide
theorem test_decode_wWrite :
    got (decodeWire [0b0000_0010, 0x28, 0x02, 0x90, 0x00]) = some (.wWrite 0x28 [0x02, 0x90, 0x00]) := by decide
theorem test_decode_wBitmod :
    got (decodeWire [0b0000_0101, 0x0F, 0xE0, 0x80]) = some (.wBitmod 0x0F 0xE0 0x80) := by decide
theorem test_decode_wRdstat : got (decodeWire [0b1010_0000, 0x00]) = some .wRdstat := by decide
theorem test_decode_wRxstat : got (decodeWire [0b1011_0000, 0x00]) = some .wRxstat := by decide
theorem test_decode_wRts0 : got (decodeWire [0b1000_0001]) = some .wRts0 := by decide
theorem test_decode_wRts1 : got (decodeWire [0b1000_0010]) = some .wRts1 := by decide
theorem test_decode_wRts2 : got (decodeWire [0b1000_0100]) = some .wRts2 := by decide
theorem test_decode_wRdrxb0Id : got (decodeWire [0b1001_0000, 0, 0, 0, 0]) = some (.wRdrxb0Id 4) := by decide
theorem test_decode_wRdrxb0Data :
    got (decodeWire [0b1001_0010, 0, 0, 0, 0, 0, 0, 0, 0]) = some (.wRdrxb0Data 8) := by decide
theorem test_decode_wRdrxb1Id :
    got (decodeWire (0b1001_0100 :: List.replicate 13 0)) = some (.wRdrxb1Id 13) := by decide
theorem test_decode_wRdrxb1Data : got (decodeWire [0b1001_0110, 0]) = some (.wRdrxb1Data 1) := by decide
/-- R99: bytes with no meaning, the combined requests among them. -/
theorem test_decode_unlisted :
    [0x80, 0x83, 0x85, 0x86, 0x87, 0x91, 0x93, 0x95, 0x97].all
      (fun b => got (decodeWire [b]) == none) = true := by decide
/-- A bracket of a length its format does not have (R83). -/
theorem test_decode_lengths :
    got (decodeWire []) = none ∧ got (decodeWire [0xC0, 0x00]) = none ∧ got (decodeWire [0x03, 0x0E]) = none ∧
    got (decodeWire [0x02, 0x31]) = none ∧ got (decodeWire (0x02 :: List.replicate 15 0)) = none ∧
    got (decodeWire [0x05, 0x0F, 0xE0]) = none ∧ got (decodeWire [0xA0]) = none ∧
    got (decodeWire (0x92 :: List.replicate 9 0)) = none := by decide
/-- The table's rows at their own width and in whole bytes (opcode_table.json). -/
theorem test_tableWord :
    decodeTableWord 8 0x84 = some .wRts2 ∧ decodeTableWord 4 0x6 = some (.rts 0) ∧
    decodeTableWord 8 0xA = some (.txframe 0 CanFrame.zero) ∧ decodeTableWord 8 0x90 = some (.wRdrxb0Id 1) := by
  decide

/-! ## One operation against answers fixed in advance (95_test_vectors.md, parts 1 and 2) -/

/-- The machine right after reset, with answers fixed in advance. -/
def bench (answers : List Byte) : State := { State.reset with answers := answers }

/-- The next state of an outcome. -/
def after (o : Host.Outcome State Fault Refusal) : Option State :=
  match o with
  | .next t => some t
  | .fault _ => none
  | .refused _ => none

/-- The trace, the result and `STATUS` after one operation (R14). -/
def observe (i : Instr) (answers : List Byte) : Option (List Event × Result × BitVec 3) :=
  (after (exec i (bench answers))).map fun t => (t.trace, t.result, t.status)

/-- A bracket whose answers are all 0xEE, but for the last ones, which are given. -/
def br (sent : List Byte) (last : List Byte) : List Event :=
  bracketEvents sent (List.replicate (sent.length - last.length) 0xEE ++ last)

/-- Answers of 0xEE where they are discarded. -/
def ee (n : Nat) : List Byte := List.replicate n 0xEE

/-- V1. -/
theorem test_reset : observe .reset (ee 1) = some (br [0xC0] [], .none, 0) := by decide
/-- V2. -/
theorem test_read : observe (.read 0x0E) (ee 2 ++ [0x80]) = some (br [0x03, 0x0E, 0x00] [0x80], .byte 0x80, 0) := by
  decide
/-- V5. -/
theorem test_write :
    observe (.write 0x28 3 #v[0x02, 0x90, 0x00, 1, 2, 3, 4, 5, 6, 7, 8, 9, 10]) (ee 5) =
      some (br [0x02, 0x28, 0x02, 0x90, 0x00] [], .none, 0) := by decide
/-- V8, V9. -/
theorem test_write_lengths :
    observe (.write 0x31 0 (Vector.replicate 13 0)) [] = some ([], .none, 3) ∧
    observe (.write 0x31 14 (Vector.replicate 13 0)) [] = some ([], .none, 3) := by decide
/-- V11. -/
theorem test_bitmod :
    observe (.bitmod 0x0F 0xE0 0x80) (ee 4) = some (br [0x05, 0x0F, 0xE0, 0x80] [], .none, 0) := by decide
/-- V14. -/
theorem test_rdstat : observe .rdstat (ee 1 ++ [0x01]) = some (br [0xA0, 0x00] [0x01], .byte 0x01, 0) := by decide
/-- V15. -/
theorem test_rxstat : observe .rxstat (ee 1 ++ [0x40]) = some (br [0xB0, 0x00] [0x40], .byte 0x40, 0) := by decide
/-- V16, V17, V18. -/
theorem test_rts :
    observe (.rts 0) (ee 1) = some (br [0x81] [], .none, 0) ∧
    observe (.rts 1) (ee 1) = some (br [0x82] [], .none, 0) ∧
    observe (.rts 2) (ee 1) = some (br [0x84] [], .none, 0) := by decide
/-- V19, V20. -/
theorem test_rts_index :
    observe (.rts 3) [] = some ([], .none, 2) ∧ observe (.rts 255) [] = some ([], .none, 2) := by decide
/-- V21, V24. -/
theorem test_rdrxb :
    observe (.rdrxb 0 .ident 4) (ee 1 ++ [0x24, 0x60, 0x00, 0x00]) =
      some (br [0x90, 0, 0, 0, 0] [0x24, 0x60, 0x00, 0x00], .block [0x24, 0x60, 0x00, 0x00], 0) ∧
    observe (.rdrxb 1 .data 1) (ee 1 ++ [0x7E]) = some (br [0x96, 0] [0x7E], .block [0x7E], 0) := by decide
/-- V25 to V29. -/
theorem test_rdrxb_rejected :
    observe (.rdrxb 2 .ident 4) [] = some ([], .none, 2) ∧ observe (.rdrxb 0 .ident 0) [] = some ([], .none, 3) ∧
    observe (.rdrxb 0 .ident 14) [] = some ([], .none, 3) ∧ observe (.rdrxb 0 .data 9) [] = some ([], .none, 3) ∧
    observe (.rdrxb 2 .ident 0) [] = some ([], .none, 2) := by decide
/-- V40, V42. -/
theorem test_setsid :
    observe (.setsid 1 0x123) (ee 6) = some (br [0x02, 0x41, 0x24, 0x60, 0x00, 0x00] [], .none, 0) ∧
    observe (.setsid 2 0x7FF) (ee 6) = some (br [0x02, 0x51, 0xFF, 0xE0, 0x00, 0x00] [], .none, 0) := by decide
/-- V43, V44, V45. -/
theorem test_setsid_rejected :
    observe (.setsid 2 0x800) [] = some ([], .none, 4) ∧ observe (.setsid 3 0x123) [] = some ([], .none, 2) ∧
    observe (.setsid 3 0x800) [] = some ([], .none, 2) := by decide
/-- V46, V48. -/
theorem test_seteid :
    observe (.seteid 0 0x1FFFFFFF) (ee 6) = some (br [0x02, 0x31, 0xFF, 0xEB, 0xFF, 0xFF] [], .none, 0) ∧
    observe (.seteid 2 0x123) (ee 6) = some (br [0x02, 0x51, 0x00, 0x08, 0x01, 0x23] [], .none, 0) := by decide
/-- V49, V50. -/
theorem test_seteid_rejected :
    observe (.seteid 0 0x20000000) [] = some ([], .none, 4) ∧ observe (.seteid 7 0) [] = some ([], .none, 2) := by
  decide
/-- V51, V56. -/
theorem test_txframe :
    observe (.txframe 0 (frame .standard false 0x123 4 #v[1, 2, 3, 4, 0, 0, 0, 0])) (ee 14) =
      some (br [0x02, 0x31, 0x24, 0x60, 0x00, 0x00] [] ++ br [0x02, 0x35, 0x04, 1, 2, 3, 4] [] ++ br [0x81] [],
        .none, 0) ∧
    observe (.txframe 2 (frame .extended true 0x1FFFFFFF 8 #v[0xDE, 0xAD, 0xBE, 0xEF, 1, 2, 3, 4])) (ee 10) =
      some (br [0x02, 0x51, 0xFF, 0xEB, 0xFF, 0xFF] [] ++ br [0x02, 0x55, 0x48] [] ++ br [0x84] [], .none, 0) := by
  decide
/-- V58, V59, V60, V62. -/
theorem test_txframe_rejected :
    observe (.txframe 3 (frame .standard false 0x800 9 (Vector.replicate 8 0))) [] = some ([], .none, 2) ∧
    observe (.txframe 2 (frame .standard false 0x800 9 (Vector.replicate 8 0))) [] = some ([], .none, 3) ∧
    observe (.txframe 2 (frame .standard false 0x800 8 (Vector.replicate 8 0))) [] = some ([], .none, 4) ∧
    observe (.txframe 0 (frame .standard true 0x123 9 (Vector.replicate 8 0))) [] = some ([], .none, 3) := by decide

/-- `SF` after V70 and V75. -/
def sfAfter (len : BitVec 4) (data : Vector Byte 8) : ScratchFrame := ⟨true, .standard, false, 0x123, len, data⟩

/-- V70, V75, V76. -/
theorem test_rxframe :
    observe (.rxframe 0)
        (ee 2 ++ [0x00] ++ ee 1 ++ [0x24, 0x60, 0x00, 0x00, 0x04, 1, 2, 3, 4, 0xAA, 0xBB, 0xCC, 0xDD]) =
      some (br [0x03, 0x60, 0x00] [0x00] ++
          br (0x90 :: List.replicate 13 0) [0x24, 0x60, 0x00, 0x00, 0x04, 1, 2, 3, 4, 0xAA, 0xBB, 0xCC, 0xDD],
        .frame (sfAfter 4 #v[1, 2, 3, 4, 0xAA, 0xBB, 0xCC, 0xDD]), 0) ∧
    ((after (exec (.rxframe 0)
        (bench (ee 2 ++ [0x00] ++ ee 1 ++ [0x24, 0x60, 0x00, 0x00, 0x4F, 1, 2, 3, 4, 5, 6, 7, 8])))).map (·.sf)) =
      some (sfAfter 15 #v[1, 2, 3, 4, 5, 6, 7, 8]) ∧
    observe (.rxframe 2) [] = some ([], .none, 2) := by decide
/-- V72: the fields the spec gives after a remote decode. -/
theorem test_rxframe_remote :
    ((after (exec (.rxframe 1) (bench (ee 2 ++ [0x08] ++ ee 1 ++ [0xFF, 0xEB, 0xFF, 0xFF])))).map fun t =>
      (t.trace, t.status, t.sf.id)) =
      some (br [0x03, 0x70, 0x00] [0x08] ++ br [0x94, 0, 0, 0, 0] [0xFF, 0xEB, 0xFF, 0xFF], 0, 0x1FFFFFFF) := by
  decide
/-- V73: only bit 3 of the control byte matters, and ID2, ID3 are discarded. -/
theorem test_rxframe_remote_standard :
    ((after (exec (.rxframe 0) (bench (ee 2 ++ [0xFF] ++ ee 1 ++ [0x24, 0x60, 0x12, 0x34])))).map fun t =>
      (t.sf.frameType, t.sf.isRemote, t.sf.id, t.sf.dataLength)) = some (.standard, true, 0x123, 0) := by decide

/-- The wire-level instructions issue the bracket R82 and R83 give them. -/
theorem test_wire_plain :
    observe .wReset (ee 1) = some (br [0xC0] [], .none, 0) ∧
    observe .wRts0 (ee 1) = some (br [0x81] [], .none, 0) ∧
    observe .wRts1 (ee 1) = some (br [0x82] [], .none, 0) ∧
    observe .wRts2 (ee 1) = some (br [0x84] [], .none, 0) := by decide
theorem test_wire_write :
    observe (.wWrite 0x28 [0x02, 0x90, 0x00]) (ee 5) =
      some (br [0x02, 0x28, 0x02, 0x90, 0x00] [], .none, 0) ∧
    observe (.wBitmod 0x0F 0xE0 0x80) (ee 4) = some (br [0x05, 0x0F, 0xE0, 0x80] [], .none, 0) := by decide
theorem test_wire_read :
    observe (.wRead 0x0E) (ee 2 ++ [0x80]) = some (br [0x03, 0x0E, 0x00] [0x80], .byte 0x80, 0) ∧
    observe .wRdstat (ee 1 ++ [0x01]) = some (br [0xA0, 0x00] [0x01], .byte 0x01, 0) ∧
    observe .wRxstat (ee 1 ++ [0x40]) = some (br [0xB0, 0x00] [0x40], .byte 0x40, 0) := by decide
theorem test_wire_fast :
    observe (.wRdrxb0Id 1) (ee 1 ++ [0x24]) = some (br [0x90, 0] [0x24], .block [0x24], 0) ∧
    observe (.wRdrxb0Data 2) (ee 1 ++ [1, 2]) = some (br [0x92, 0, 0] [1, 2], .block [1, 2], 0) ∧
    observe (.wRdrxb1Id 1) (ee 1 ++ [0x91]) = some (br [0x94, 0] [0x91], .block [0x91], 0) ∧
    observe (.wRdrxb1Data 1) (ee 1 ++ [0x7E]) = some (br [0x96, 0] [0x7E], .block [0x7E], 0) := by decide

/-- One move of the host, and what it leaves. -/
def stepWith (m : Move) (s : State) : Option State := after (step { s with moves := [m] })

/-- V90, V91: a reserved `OP`, whatever the operands. -/
theorem test_reserved_op :
    ((stepWith (.issue (.command { port 0xC with idx := 9, len := 0 })) State.reset).map fun t =>
      (t.trace, t.status)) = some ([], 1) ∧
    ((stepWith (.issue (.command (port 0xF))) State.reset).map fun t => (t.trace, t.status)) = some ([], 1) := by
  decide

/-! ## The packing tables (95_test_vectors.md 2.1) -/

theorem test_packStd :
    [0x000, 0x001, 0x007, 0x008, 0x2AA, 0x555, 0x400].map (fun i => (packStd i).toList) =
      [[0x00, 0x00, 0, 0], [0x00, 0x20, 0, 0], [0x00, 0xE0, 0, 0], [0x01, 0x00, 0, 0], [0x55, 0x40, 0, 0],
       [0xAA, 0xA0, 0, 0], [0x80, 0x00, 0, 0]] := by decide
theorem test_packExt :
    [0x0000FFFF, 0x00010000, 0x00030000, 0x00040000, 0x001C0000, 0x00200000, 0x0ABCDEF1, 0x12345678, 0x15555555].map
        (fun i => (packExt i).toList) =
      [[0x00, 0x08, 0xFF, 0xFF], [0x00, 0x09, 0x00, 0x00], [0x00, 0x0B, 0x00, 0x00], [0x00, 0x28, 0x00, 0x00],
       [0x00, 0xE8, 0x00, 0x00], [0x01, 0x08, 0x00, 0x00], [0x55, 0xE8, 0xDE, 0xF1], [0x91, 0xA8, 0x56, 0x78],
       [0xAA, 0xA9, 0x55, 0x55]] := by decide
theorem test_unpackId :
    unpackId ⟨0x24, 0x77, 0, 0⟩ = (.standard, 0x123) ∧ unpackId ⟨0xFF, 0xF7, 0xAA, 0x55⟩ = (.standard, 0x7FF) ∧
    unpackId ⟨0x12, 0x34, 0x56, 0x78⟩ = (.standard, 0x091) ∧
    unpackId ⟨0x12, 0x3C, 0x56, 0x78⟩ = (.extended, 0x02445678) ∧
    unpackId ⟨0xFF, 0xFF, 0xFF, 0xFF⟩ = (.extended, 0x1FFFFFFF) := by decide
theorem test_dlcByte :
    dlcByte .length false 4 = 0x04 ∧ dlcByte .length true 4 = 0x44 ∧ dlcByte .length true 8 = 0x48 ∧
    dlcByte .zero true 8 = 0x40 := by decide

/-! ## The reference responder and the host sequences (95_test_vectors.md 2.2, 2.5, part 3) -/

/-- The machine right after reset with MOCK as the environment, and with some registers written. -/
def mocked (regs : List (Byte × Byte)) : State :=
  { State.reset with env := .mock, mock := regs.foldl (fun m r => m.set r.1 r.2) Mock.initial }

/-- The effect of V11, V12 and V13 on MOCK, and the general formula. -/
theorem test_mock_bitmod :
    (((mocked [(0x0F, 0x07)]).run (.bitmod 0x0F 0xE0 0x80)).mock.get 0x0F) = 0x87 ∧
    (((mocked [(0x30, 0x0B)]).run (.bitmod 0x30 0x00 0xFF)).mock.get 0x30) = 0x0B ∧
    (((mocked [(0x2C, 0xA3)]).run (.bitmod 0x2C 0xFF 0x00)).mock.get 0x2C) = 0x00 ∧
    Machine.bitModify 0xA5 0x3C 0xF0 = 0xB1 := by decide
/-- P1, its second operation: registers 0x30 to 0x3D. -/
theorem test_mock_txframe :
    ((mocked []).run (.txframe 0 (frame .standard false 0x123 4 #v[1, 2, 3, 4, 0, 0, 0, 0]))).mock.getBlock 0x30 14 =
      [0x08, 0x24, 0x60, 0, 0, 0x04, 1, 2, 3, 4, 0, 0, 0, 0] := by decide
/-- P2, `Deliver(0, 0)` from the end state of P1. -/
theorem test_mock_deliver :
    let m := (mocked [(0x30, 0x08), (0x31, 0x24), (0x32, 0x60), (0x35, 0x04), (0x36, 1), (0x37, 2)]).deliver 0 0
    m.mock.getBlock 0x60 10 = [0x00, 0x24, 0x60, 0, 0, 0x04, 1, 2, 0, 0] ∧ m.mock.get 0x2C = 0x01 ∧
    m.mock.get 0x30 = 0x00 := by decide
/-- P3, its first operation: RESET on registers holding other values. -/
theorem test_mock_reset :
    ((mocked [(0x00, 0x55), (0x0E, 0x55), (0x0F, 0x55), (0xFF, 0x55)]).run .reset).mock.reg =
      [(0x0E, 0x80), (0x0F, 0x80)] := by decide
/-- E4, V101: the mode request and the polls against MOCK. -/
theorem test_requestMode :
    (requestMode .configuration 1 (mocked [])).1 = true ∧
    (requestMode .configuration 1 (mocked [])).2.trace.length = 11 ∧
    (requestMode .normal 2 (bench (ee 6 ++ [0x80] ++ ee 2 ++ [0x00]))).1 = true := by decide
/-- V105, V106. -/
theorem test_isTransmitBufferFree :
    (isTransmitBufferFree 1 (bench (ee 2 ++ [0x0B]))).1 = false ∧
    (isTransmitBufferFree 1 (bench (ee 2 ++ [0x33]))).1 = true := by decide
/-- V107, V108, V109. -/
theorem test_getTransmitError :
    (getTransmitError 0 (bench (ee 2 ++ [0x20]))).1 = .lostArbitration ∧
    (getTransmitError 0 (bench (ee 2 ++ [0x10]))).1 = .otherError ∧
    (getTransmitError 0 (bench (ee 2 ++ [0x08]))).1 = .noError := by decide
/-- V115, V116. -/
theorem test_transmit :
    (transmit 0 2 #v[0xAA, 0xBB, 0, 0, 0, 0, 0, 0] (bench (ee 2 ++ [0x00] ++ ee 6))).2.trace =
      br [0x03, 0x30, 0x00] [0x00] ++ br [0x02, 0x35, 0x02, 0xAA, 0xBB] [] ++ br [0x81] [] ∧
    (transmitWithId 0 CanFrame.zero (bench (ee 2 ++ [0x08]))).2.trace = br [0x03, 0x30, 0x00] [0x08] := by decide
/-- V111, V113, V114. -/
theorem test_host_bitmods :
    (abortTransmit 2 (bench (ee 4))).trace = br [0x05, 0x50, 0x08, 0x00] [] ∧
    (releaseReceiveBuffer 1 (bench (ee 4))).trace = br [0x05, 0x2C, 0x02, 0x00] [] ∧
    (clearMerrf (bench (ee 4))).trace = br [0x05, 0x2C, 0x80, 0x00] [] := by decide
/-- V112. -/
theorem test_setPriority :
    (setPriority 1 3 (bench (ee 2 ++ [0x00] ++ ee 4))).2.trace =
      br [0x03, 0x40, 0x00] [0x00] ++ br [0x05, 0x40, 0x03, 0x03] [] := by decide
/-- V100 and U17: the mode field mapped back, and a field that is no mode's code. -/
theorem test_getMode :
    (getMode (bench (ee 2 ++ [0x80]))).1 = some .configuration ∧
    (getMode (bench (ee 2 ++ [0x7F]))).1 = some .listenOnly ∧ (getMode (bench (ee 2 ++ [0xA0]))).1 = none := by decide
/-- R218: MERRF pending, and a flag enabled and read back in CANINTE. -/
theorem test_flags :
    (isMerrfPending (bench (ee 2 ++ [0x80]))).1 = true ∧ (isMerrfPending (bench (ee 2 ++ [0x7F]))).1 = false ∧
    (isFlagEnabled 1 (setFlagEnabled 1 true (mocked []))).1 = true ∧
    (isFlagEnabled 1 (setFlagEnabled 1 false (mocked [(0x2B, 0xFF)]))).1 = false := by decide
/-- E5: mask 0 Extended, mask 1 Standard, inside a Configuration bracket against MOCK. -/
theorem test_setMask :
    (setMask 0 (.extended 0x1FFFFFFF) 1 (mocked [])).2.mock.getBlock 0x20 4 = [0xFF, 0xEB, 0xFF, 0xFF] ∧
    (setMask 1 (.standard 0x7FF) 1 (mocked [])).2.mock.getBlock 0x24 4 = [0xFF, 0xE0, 0x00, 0x00] := by decide
/-- P3 with a filter written in the same Configuration bracket, ending in Loopback (R246; V102). -/
theorem test_boot :
    (boot 8000 500 [.filter 3 (.standard 0x123)] .loopback 1 (mocked [(0x55, 0x55)])).1 = true ∧
    (boot 8000 500 [.filter 3 (.standard 0x123)] .loopback 1 (mocked [(0x55, 0x55)])).2.mock.reg =
      [(0x0E, 0x40), (0x0F, 0x40), (0x10, 0x24), (0x11, 0x60), (0x28, 0x02), (0x29, 0x90)] := by decide
/-- E7. -/
theorem test_bitTiming :
    (writeTiming (bitTiming 8000 500) (bench (ee 9))).trace =
      br [0x02, 0x2A, 0x00] [] ++ br [0x02, 0x29, 0x90] [] ++ br [0x02, 0x28, 0x02] [] := by decide

/-! ## Steps and moves -/

/-- R242: the block's reset in the middle of an operation. -/
def midRead : State :=
  { bench [0x80] with
    cs := .selected, cur := some (.read 0x0E), seq := 2, trace := [.sel, .x 0x03 0xEE], answers := [0xEE, 0x80] }

theorem test_reset_mid_operation :
    ((stepWith .reset midRead).map fun t => (t.cs, t.cur, t.status, t.trace)) =
      some (.deselected, none, 0, [.sel, .x 0x03 0xEE, .des]) := by decide
/-- R242 from `State.reset`: a reset after two events of an operation, by moves alone. -/
theorem test_reset_after_two_events :
    (after (Sys2Proof.core.run 4
      { bench (ee 1) with moves := [.start (.wire [0x03, 0x0E, 0x00]), .wait, .wait, .reset] })).map
        (fun t => (t.cs, t.cur, t.moves, t.trace)) =
      some (.deselected, none, [], [.sel, .x 0x03 0xEE, .des]) := by decide
/-- R29: one event per step. -/
theorem test_one_event :
    ((after (step midRead)).map fun t => (t.seq, t.trace)) =
      some (3, [.sel, .x 0x03 0xEE, .x 0x0E 0xEE]) := by decide

/-! ## Witnesses: each shows a case that meets the hypotheses of the statement it names -/

/-- Whether an outcome is a next state. -/
def runs (o : Host.Outcome State Fault Refusal) : Prop := ∃ t, o = .next t

theorem witness_DecodeOfEncodeIsIdentity :
    (Instr.wWrite 0x31 (List.replicate 13 7)).wf = true ∧ (Instr.wWrite 0x31 [7]).wf = true ∧
    (Instr.wRdrxb0Id 13).wf = true ∧ (Instr.wRdrxb1Data 8).wf = true ∧ (Instr.rts 255).wf = true := by decide

theorem witness_EncodeOfDecodedBracketAgrees :
    decodeWire [0x96, 0xFF] = .ok (.wRdrxb1Data 1) ∧ decodeWire [0x02, 0x31, 0x05] = .ok (.wWrite 0x31 [0x05]) :=
  ⟨rfl, rfl⟩

theorem witness_DecodedInstructionIsWellFormed :
    decode (.wire (0x90 :: List.replicate 13 0)) = .ok (.wRdrxb0Id 13) ∧
    decode (.command (port 0x6)) = .ok (.rts 1) := ⟨rfl, rfl⟩

/-- The reset state with one move. -/
def moving (m : Move) : State := { State.reset with moves := [m] }

theorem witness_UnlistedFirstByteIsRefused :
    (0x80 : Byte) ∉ ([0xC0, 0x03, 0x02, 0x05, 0xA0, 0xB0, 0x81, 0x82, 0x84, 0x90, 0x92, 0x94, 0x96] : List Byte) ∧
    (moving (.issue (.wire [0x80]))).ready ∧
    (moving (.issue (.wire [0x80]))).moves = [.issue (.wire [0x80])] := ⟨by decide, ⟨rfl, rfl⟩, rfl⟩

theorem witness_ReservedOperationIsRejected :
    0xC ≤ (port 0xC).op.toNat ∧ 0xC ≤ (port 0xF).op.toNat ∧ (moving (.issue (.command (port 0xC)))).ready ∧
    (moving (.start (.command (port 0xF)))).ready ∧
    (moving (.issue (.command (port 0xC)))).moves = [.issue (.command (port 0xC))] ∧
    (moving (.start (.command (port 0xF)))).moves = [.start (.command (port 0xF))] :=
  ⟨by decide, by decide, ⟨rfl, rfl⟩, ⟨rfl, rfl⟩, rfl, rfl⟩

theorem witness_OperandsNotReadDoNotMatter :
    port 0x6 ≠ { port 0x6 with addr := 0, frame := CanFrame.zero } ∧
    portsAgree (port 0x6) { port 0x6 with addr := 0, frame := CanFrame.zero } ∧
    portsAgree { port 0x2 with len := 1 } { port 0x2 with len := 1, wbuf := (port 0x2).wbuf.set 12 0 } ∧
    portsAgree (port 0xA)
      { port 0xA with frame := { (port 0xA).frame with data := Vector.replicate 8 0 } } :=
  ⟨by decide, ⟨rfl, rfl⟩, ⟨rfl, rfl, rfl, rfl⟩, ⟨rfl, rfl, rfl, rfl, rfl, rfl, fun h => by cases h⟩⟩

theorem witness_ReadPresentsThirdAnswer : (port 0x1).op = 0x1 := rfl

theorem witness_StatusReadsPresentOneByte : (port 0x4).op = 0x4 ∧ (port 0x5).op = 0x5 := ⟨rfl, rfl⟩

/-- Both clauses of WRITE at their limits. -/
theorem witness_WriteSendsItsBytes :
    (1 ≤ (1 : Byte).toNat ∧ (1 : Byte).toNat ≤ 13) ∧ (1 ≤ (13 : Byte).toNat ∧ (13 : Byte).toNat ≤ 13) ∧
    ¬(1 ≤ (0 : Byte).toNat) ∧ ¬((14 : Byte).toNat ≤ 13) ∧
    (1 ≤ (List.replicate 1 (7 : Byte)).length ∧ (List.replicate 1 (7 : Byte)).length ≤ 13) ∧
    (1 ≤ (List.replicate 13 (7 : Byte)).length ∧ (List.replicate 13 (7 : Byte)).length ≤ 13) ∧
    ¬(1 ≤ ([] : List Byte).length) ∧ ¬((List.replicate 14 (7 : Byte)).length ≤ 13) := by decide

theorem witness_RtsSendsItsBuffersOpcode : 2 < (3 : Byte).toNat ∧ 2 < (255 : Byte).toNat := by decide

theorem witness_FastReadPresentsTheBytesRead :
    (1 ≤ (1 : Byte).toNat ∧ (1 : Byte).toNat ≤ 8) ∧ (1 ≤ (8 : Byte).toNat ∧ (8 : Byte).toNat ≤ 8) ∧
    (1 ≤ (13 : Byte).toNat ∧ (13 : Byte).toNat ≤ 13) ∧ (1 ≤ 1 ∧ 1 ≤ 8) ∧ (1 ≤ 8 ∧ 8 ≤ 8) ∧ (1 ≤ 13 ∧ 13 ≤ 13) := by
  decide

/-- SETSID at each limit: index 2 and 3, identifier 0x7FF and 0x800. -/
theorem witness_SetsidWritesStandardIdentifier :
    (port 0x8).op = 0x8 ∧ ¬2 < (2 : Byte).toNat ∧ 2 < (3 : Byte).toNat ∧ ¬0x7FF < (0x7FF : IdOperand).toNat ∧
    0x7FF < (0x800 : IdOperand).toNat := by decide

theorem witness_SeteidWritesExtendedIdentifier :
    (port 0x9).op = 0x9 ∧ ¬0x1FFFFFFF < (0x1FFFFFFF : IdOperand).toNat ∧ 0x1FFFFFFF < (0x20000000 : IdOperand).toNat := by decide

/-- TXFRAME: each check at its limit, for both frame types. -/
theorem witness_TxframeRunsThreeBrackets :
    (port 0xA).op = 0xA ∧
    ¬8 < (frame .standard false 0x7FF 8 (Vector.replicate 8 0)).dataLength.toNat ∧
    8 < (frame .standard false 0x7FF 9 (Vector.replicate 8 0)).dataLength.toNat ∧
    ¬(if FrameType.standard = .standard then 0x7FF else 0x1FFFFFFF) < (0x7FF : IdOperand).toNat ∧
    (if FrameType.standard = .standard then 0x7FF else 0x1FFFFFFF) < (0x800 : IdOperand).toNat ∧
    ¬(if FrameType.extended = .standard then 0x7FF else 0x1FFFFFFF) < (0x800 : IdOperand).toNat := by decide

/-- RXFRAME: index 1 and 2, control byte with and without the remote flag. -/
theorem witness_RxframeDecodesIntoScratchFrame :
    (port 0xB).op = 0xB ∧ ¬1 < (1 : Byte).toNat ∧ 1 < (2 : Byte).toNat ∧ (0x08 : Byte).getLsbD State.reset.params.rxRtrBit = true ∧
    (0xF7 : Byte).getLsbD State.reset.params.rxRtrBit = false := by decide

theorem witness_RejectionChangesOnlyStatus :
    Instr.rejection (.rts 3) = some 2 ∧ Instr.rejection (.write 0x31 0 (Vector.replicate 13 0)) = some 3 ∧
    Instr.rejection (.setsid 2 0x800) = some 4 := by decide

theorem witness_EachOperationHasOnlyItsCodes :
    runs (exec .wReset State.reset) ∧ runs (exec (.read 0x0E) State.reset) ∧
    runs (exec (.wBitmod 0x0F 0xE0 0x80) State.reset) ∧
    runs (exec (.write 0x31 14 (Vector.replicate 13 0)) State.reset) ∧ runs (exec (.rts 2) State.reset) ∧
    runs (exec (.rdrxb 1 .data 8) State.reset) ∧ runs (exec (.setsid 2 0x7FF) State.reset) ∧
    runs (exec (.seteid 2 0x20000000) State.reset) ∧ runs (exec (.txframe 3 CanFrame.zero) State.reset) ∧
    runs (exec (.rxframe 1) State.reset) ∧ runs (exec (.wWrite 0x31 []) State.reset) ∧
    runs (exec (.wRdrxb0Data 9) State.reset) :=
  ⟨⟨_, rfl⟩, ⟨_, rfl⟩, ⟨_, rfl⟩, ⟨_, rfl⟩, ⟨_, rfl⟩, ⟨_, rfl⟩, ⟨_, rfl⟩, ⟨_, rfl⟩, ⟨_, rfl⟩, ⟨_, rfl⟩, ⟨_, rfl⟩,
    ⟨_, rfl⟩⟩

theorem witness_IndexOutOfRangeIsRejected : 2 < (3 : Byte).toNat ∧ 1 < (2 : Byte).toNat := by decide

theorem witness_IdentifierOutOfRangeIsRejected :
    (2 : Byte).toNat ≤ 2 ∧ 0x7FF < (0x800 : IdOperand).toNat ∧ 0x1FFFFFFF < (0x20000000 : IdOperand).toNat ∧
    (frame .standard true 0x800 8 (Vector.replicate 8 0)).dataLength.toNat ≤ 8 ∧
    (frame .extended false 0x20000000 8 (Vector.replicate 8 0)).dataLength.toNat ≤ 8 := by decide

theorem witness_LengthOutOfRangeIsRejected :
    (0 : Byte).toNat = 0 ∧ 13 < (14 : Byte).toNat ∧ 8 < (9 : Byte).toNat ∧ (1 : Byte).toNat ≤ 1 ∧
    (2 : Byte).toNat ≤ 2 ∧ 8 < (frame .standard true 0 9 (Vector.replicate 8 0)).dataLength.toNat := by decide

theorem witness_FirstFailingCheckIsReported :
    runs (State.reset.issue (.command (port 0xC))) ∧ runs (State.reset.issue (.command (port 0xA))) ∧
    runs (State.reset.issue (.command { port 0x7 with idx := 2, len := 0 })) :=
  ⟨⟨_, rfl⟩, ⟨_, rfl⟩, ⟨_, rfl⟩⟩

/-- An operation that is not RXFRAME, an RXFRAME that is rejected, and one that is not. -/
theorem witness_ScratchFrameIsRxframesAlone :
    runs (exec (.read 0x0E) State.reset) ∧ (∀ idx, Instr.read 0x0E ≠ .rxframe idx) ∧
    (∃ t, exec (.rxframe 2) State.reset = .next t ∧ t.status ≠ 0) ∧
    (∃ t, exec (.rxframe 1) State.reset = .next t ∧ t.status = 0) :=
  ⟨⟨_, rfl⟩, fun _ h => (by cases h), ⟨_, rfl, by decide⟩, ⟨_, rfl, rfl⟩⟩

theorem witness_ParametersNeverChange :
    runs (step State.reset) ∧ runs (step (moving (.issue (.command (port 0x0))))) := ⟨⟨_, rfl⟩, ⟨_, rfl⟩⟩

theorem witness_ExchangeCountsAreThoseListed :
    runs (exec (.txframe 2 (frame .extended true 5 8 (Vector.replicate 8 0))) State.reset) ∧
    Instr.rejection (.txframe 2 (frame .extended true 5 8 (Vector.replicate 8 0))) = none ∧
    runs (exec (.rts 3) State.reset) ∧ Instr.rejection (.rts 3) ≠ none :=
  ⟨⟨_, rfl⟩, by decide, ⟨_, rfl⟩, by decide⟩

theorem witness_OperationsIssueWholeBrackets :
    runs (exec (.rxframe 0) State.reset) ∧ State.reset.cs = .deselected := ⟨⟨_, rfl⟩, rfl⟩

theorem witness_OnlyListedFirstBytesAreSent : runs (exec (.rdrxb 1 .ident 13) State.reset) := ⟨_, rfl⟩

theorem witness_OracleAnswersAreConsumedInOrder :
    (bench [1, 2, 3, 4]).env = .oracle ∧
    (∃ t, exec (.read 0x0E) (bench [1, 2, 3, 4]) = .next t ∧
      t.trace = (bench [1, 2, 3, 4]).trace ++ [.sel, .x 0x03 1, .x 0x0E 2, .x 0x00 3, .des] ∧
      (answersOf [.sel, .x 0x03 1, .x 0x0E 2, .x 0x00 3, .des]).length ≤ (bench [1, 2, 3, 4]).answers.length) :=
  ⟨rfl, _, rfl, rfl, by decide⟩

/-- A busy state that has the invariant. -/
theorem witness_StepKeepsInvariant : midRead.Inv ∧ runs (step midRead) := by
  refine ⟨⟨?_, ?_, ?_, ?_, ?_⟩, _, rfl⟩
  · show csAfter [.sel, .x 0x03 0xEE] = some .selected
    decide
  · refine ⟨rfl, ?_, ?_, ?_⟩ <;> decide
  · show (0 : BitVec 3).toNat ≤ 4
    decide
  · exact ⟨fun _ => by decide, fun h => by cases h⟩
  · show Memory.wf Mock.initial.reg = true
    decide

theorem witness_BlockResetAbandonsOperation :
    { midRead with moves := [.reset] }.mockStopped = false ∧ midRead.cs = .selected ∧
    (moving .reset).mockStopped = false ∧ (moving .reset).cs = .deselected := ⟨rfl, rfl, rfl, rfl⟩

theorem witness_EventStepsComposeToOperation :
    (moving (.start (.command (port 0xB)))).ready ∧
    (moving (.start (.command (port 0xB)))).moves = [.start (.command (port 0xB))] ∧
    decode (.command (port 0xB)) = .ok (.rxframe 1) := ⟨⟨rfl, rfl⟩, rfl, rfl⟩

theorem witness_BusyBlockIssuesOneEvent :
    midRead.Inv ∧ midRead.mockStopped = false ∧ midRead.cur = some (.read 0x0E) ∧
    midRead.moves.head? ≠ some .reset ∧ { midRead with moves := [.wait] }.moves.head? ≠ some .reset :=
  ⟨witness_StepKeepsInvariant.1, rfl, rfl, by decide, by decide⟩

theorem witness_StepRunsDecodedInstruction :
    (moving (.issue (.wire [0x84]))).ready ∧ decode (.wire [0x84]) = .ok .wRts2 ∧
    (moving (.issue (.wire [0x84]))).moves = [.issue (.wire [0x84])] ∧
    (moving (.start (.command (port 0x6)))).ready ∧ decode (.command (port 0x6)) = .ok (.rts 1) ∧
    (moving (.start (.command (port 0x6)))).moves = [.start (.command (port 0x6))] :=
  ⟨⟨rfl, rfl⟩, rfl, rfl, ⟨rfl, rfl⟩, rfl, rfl⟩

theorem witness_ReadingInvalidScratchFrameFaults :
    (moving .readFrame).ready ∧ (moving .readFrame).moves = [.readFrame] ∧ (moving .readFrame).sf.valid = false ∧
    { moving .readFrame with sf := sfAfter 4 (Vector.replicate 8 1) }.ready ∧
    (sfAfter 4 (Vector.replicate 8 1)).valid = true := ⟨⟨rfl, rfl⟩, rfl, rfl, ⟨rfl, rfl⟩, rfl⟩

theorem witness_UnpackInvertsPack : (IdBlock.mk 0x24 0x77 0xAB 0xCD).id1.getLsbD 3 = false := by decide

theorem witness_DataLengthByteIsAsListed : (0 : Byte).toNat ≤ 8 ∧ (8 : Byte).toNat ≤ 8 := by decide

/-- A data frame and a remote frame, each received from the register bytes its transmission sent. -/
theorem witness_TransmittedFrameIsReceived :
    ((2 : Byte).toNat ≤ 2 ∧ (1 : Byte).toNat ≤ 1 ∧ (8 : Byte).toNat ≤ 8) ∧
    (∃ t ev, exec (.txframe 2 (frame .standard false 0x123 8 #v[1, 2, 3, 4, 5, 6, 7, 8])) (bench (ee 18)) = .next t ∧
      t.trace = (bench (ee 18)).trace ++ ev ∧ idFits .standard 0x123 = true ∧
      (bench ([0, 0, 0x00, 0] ++ registerBytes ev ++ [] ++ [9])).env = .oracle ∧
      (0x00 : Byte).getLsbD (bench ([0, 0, 0x00, 0] ++ registerBytes ev ++ [] ++ [9])).params.rxRtrBit = false ∧
      ([] : List Byte).length = 8 - (8 : Byte).toNat) ∧
    (∃ t ev, exec (.txframe 0 (frame .extended true 0x1FFFFFFF 8 (Vector.replicate 8 0))) (bench (ee 10)) = .next t ∧
      t.trace = (bench (ee 10)).trace ++ ev ∧ idFits .extended 0x1FFFFFFF = true ∧
      (bench ([0, 0, 0x08, 0] ++ (registerBytes ev).take 4 ++ [9])).env = .oracle ∧
      (0x08 : Byte).getLsbD (bench ([0, 0, 0x08, 0] ++ (registerBytes ev).take 4 ++ [9])).params.rxRtrBit = true) :=
  ⟨by decide, ⟨_, _, rfl, rfl, by decide, rfl, by decide, rfl⟩, ⟨_, _, rfl, rfl, by decide, rfl, by decide⟩⟩

/-- MOCK answers and is between brackets, and its registers are canonical. -/
theorem witness_MockReadGivesTheRegister :
    (mocked [(0x31, 0x24)]).env = .mock ∧ (mocked [(0x31, 0x24)]).mock.ph ≠ .refused := ⟨rfl, by decide⟩

theorem witness_MockFastReadGivesTheBuffer :
    (mocked []).env = .mock ∧ (mocked []).mock.ph ≠ .refused ∧ (1 : Byte).toNat ≤ 1 ∧ (13 : Byte).toNat ≤ 13 ∧
    1 ≤ (1 : Byte).toNat ∧ (8 : Byte).toNat ≤ 8 := ⟨rfl, by decide, by decide, by decide, by decide, by decide⟩

/-- The last conjuncts: a run that stores to `A_CANSTAT` (0x0E) and then to `A_CANCTRL` (0x0F), one that stores to
`A_CANSTAT` alone, one that stores to `A_CANCTRL` alone, and a map with `A_CANSTAT` above `A_CANCTRL`. -/
theorem witness_MockWriteStoresAscending_echo :
    (0x0E : Byte) + BitVec.ofNat 8 (0 : Fin 13) = (mocked []).params.map.canstat ∧
    (0x0E : Byte) + BitVec.ofNat 8 (1 : Fin 13) = (mocked []).params.map.canctrl ∧ (0 : Fin 13) < 1 ∧
    (mocked []).params.map.canctrl ≠ (mocked []).params.map.canstat ∧
    (0x0F : Byte) + BitVec.ofNat 8 (0 : Fin 13) = (mocked []).params.map.canctrl ∧
    (∀ k : Fin 13, (0x0F : Byte) + BitVec.ofNat 8 k ≠ (mocked []).params.map.canstat) ∧
    (∀ j : Fin 13, j.val < (1 : Byte).toNat → (0x0E : Byte) + BitVec.ofNat 8 j ≠ (mocked []).params.map.canctrl) ∧
    ({ (mocked []).params.map with canstat := 0x10 } : AddrMap).canstat = (0x0F : Byte) + BitVec.ofNat 8 (1 : Fin 13) := by
  decide

theorem witness_MockWriteStoresAscending :
    (mocked [(0x31, 0x24)]).memOk ∧ (mocked [(0x31, 0x24)]).env = .mock ∧
    (mocked [(0x31, 0x24)]).mock.ph ≠ .refused ∧ 1 ≤ (1 : Byte).toNat ∧
    (13 : Byte).toNat ≤ 13 ∧
    (0xFE : Byte) + BitVec.ofNat 8 (2 : Fin 13) ≠ (mocked []).params.map.canstat := by
  refine ⟨?_, rfl, by decide, by decide, by decide, by decide⟩
  show Memory.wf (mocked [(0x31, 0x24)]).mock.reg = true
  decide

theorem witness_MockBitModifyMergesUnderMask :
    (mocked [(0x31, 0x24)]).memOk ∧ (mocked [(0x31, 0x24)]).env = .mock ∧
    (mocked [(0x31, 0x24)]).mock.ph ≠ .refused ∧
    (mocked [(0x31, 0x24)]).params.map.canctrl ≠ (mocked [(0x31, 0x24)]).params.map.canstat :=
  ⟨witness_MockWriteStoresAscending.1, rfl, by decide, by decide⟩

theorem witness_MockRequestToSendSetsTheBit :
    (mocked [(0x31, 0x24)]).memOk ∧ (mocked [(0x31, 0x24)]).env = .mock ∧
    (mocked [(0x31, 0x24)]).mock.ph ≠ .refused ∧ (2 : Byte).toNat ≤ 2 :=
  ⟨witness_MockWriteStoresAscending.1, rfl, by decide, by decide⟩

theorem witness_MockResetEntersConfiguration :
    (mocked []).env = .mock ∧ (mocked []).mock.ph ≠ .refused := ⟨rfl, by decide⟩

theorem witness_MockDeliveryCopiesTheFrame : Memory.wf (mocked [(0x31, 0x24)]).mock.reg = true := by decide

theorem witness_MockRefusesNoOperation :
    (mocked []).env = .mock ∧ (mocked []).mock.ph ≠ .refused ∧ runs (exec (.rxframe 0) (mocked [])) ∧
    Instr.rejection (.rxframe 0) = none :=
  ⟨rfl, by decide, ⟨_, rfl⟩, by decide⟩

/-- A stored address and one that is not; a rejected operation. -/
theorem witness_MockChangesOnlyStoredRegisters :
    (mocked []).env = .mock ∧ (mocked []).mock.ph ≠ .refused ∧
    runs (exec (.setsid 1 0x123) (mocked [])) ∧ (0x45 : Byte) ∉ storeSet (mocked []).params (.setsid 1 0x123) ∧
    (0x44 : Byte) ∈ storeSet (mocked []).params (.setsid 1 0x123) ∧ runs (exec (.setsid 3 0x123) (mocked [])) ∧
    Instr.rejection (.setsid 3 0x123) ≠ none :=
  ⟨rfl, by decide, ⟨_, rfl⟩, by decide, by decide, ⟨_, rfl⟩, by decide⟩

/-- Answers that confirm the mode at the second poll, and answers that never do. -/
theorem witness_RequestModePollsUntilConfirmed :
    (bench ([0, 0, 0xA0] ++ [5])).env = .oracle ∧ (bench ([0, 0, 0xA0] ++ [5])).answers = [0, 0, 0xA0] ++ [5] ∧
    (bench (ee 4 ++ ([(0, 0, 0x80)] : List (Byte × Byte × Byte)).flatMap (fun q => [q.1, q.2.1, q.2.2]) ++
      [0, 0, 0x00] ++ [5])).env = .oracle ∧ (ee 4).length = 4 ∧
    (∀ q ∈ ([(0, 0, 0x80)] : List (Byte × Byte × Byte)), field q.2.2 5 3 ≠ State.reset.params.modeCode.code .normal) ∧
    field (0x00 : Byte) 5 3 = State.reset.params.modeCode.code .normal :=
  ⟨rfl, rfl, rfl, rfl, List.forall_mem_singleton.mpr (by decide), by decide⟩

/-- Both cases of the free check, each in a state that shows it: the answered byte has bit 3 set, or clear. -/
theorem witness_OccupiedBufferFailsFast :
    (0x08 : Byte).getLsbD 3 = true ∧ (isTransmitBufferFree 2 (bench (ee 2 ++ [0x08]))).1 = false ∧
    (0xF7 : Byte).getLsbD 3 = false ∧ (isTransmitBufferFree 2 (bench (ee 2 ++ [0xF7]))).1 = true := by decide

theorem witness_TransmitErrorMapsTwoBits :
    ((0x20 : Byte).getLsbD 5 = true ∧ (0x20 : Byte).getLsbD 4 = false) ∧
    ((0x10 : Byte).getLsbD 5 = false ∧ (0x10 : Byte).getLsbD 4 = true) ∧
    ((0x08 : Byte).getLsbD 5 = false ∧ (0x08 : Byte).getLsbD 4 = false) ∧
    ((0x30 : Byte).getLsbD 5 = true ∧ (0x30 : Byte).getLsbD 4 = true) := by decide

theorem witness_MockBufferOccupiedUntilAborted :
    (mocked [(0x31, 0x24)]).env = .mock ∧ (mocked [(0x31, 0x24)]).mock.ph ≠ .refused ∧
    (mocked [(0x31, 0x24)]).memOk ∧
    familyAddr (mocked [(0x31, 0x24)]).params.map.txbCtrl (BitVec.ofNat 8 (2 : Fin 3)) ≠
      (mocked [(0x31, 0x24)]).params.map.canctrl :=
  ⟨rfl, by decide, witness_MockWriteStoresAscending.1, by decide⟩

end Sys2Proof.Tests
end

/-! # What every step keeps of the machine's surroundings (00_scope.md)

An instruction's meaning is made of few operations of Machine/Ops.lean: the transport events, the load of the scratch
frame and completion. `ClosedUnderOps` says once that a predicate these keep holds of the state exec answers; the
statements about exec below each name such a predicate. -/

namespace Sys2Proof.Machine

open Host (Outcome)
open Sys2Proof.Config

/-! ## Predicates kept by every operation exec is made of -/

/-- A predicate on states that each operation a meaning is made of keeps. -/
structure ClosedUnderOps (P : State → Prop) : Prop where
  select      : ∀ s, P s → P s.select
  deselect    : ∀ s, P s → P s.deselect
  xchg        : ∀ t s, P s → P (s.xchg t).2
  loadScratch : ∀ rem bs s, P s → P (s.loadScratch rem bs)
  complete    : ∀ code res s, P s → P (s.complete code res)

/-- The outcome is a next state with `P`. -/
def EndsIn (P : State → Prop) (o : Outcome State Fault Refusal) : Prop := ∃ t, o = .next t ∧ P t

theorem EndsIn.next {P : State → Prop} {t : State} (h : P t) : EndsIn P (.next t) := ⟨t, rfl, h⟩

theorem EndsIn.ite {P : State → Prop} {c : Prop} [Decidable c] {o₁ o₂ : Outcome State Fault Refusal}
    (h₁ : EndsIn P o₁) (h₂ : EndsIn P o₂) : EndsIn P (if c then o₁ else o₂) := by
  split
  · exact h₁
  · exact h₂

namespace ClosedUnderOps

variable {P : State → Prop} (hP : ClosedUnderOps P)
include hP

theorem exchanges (xs : List Xfer) {s : State} (h : P s) : P (exchanges xs s).2 := by
  induction xs generalizing s with
  | nil => exact h
  | cons x xs ih =>
    cases x with
    | send t => exact ih (hP.xchg t s h)
    | recv => exact ih (hP.xchg _ s h)

theorem bracket (xs : List Xfer) {s : State} (h : P s) : P (s.bracket xs).2 :=
  hP.deselect _ (hP.exchanges xs (hP.select s h))

theorem primitive (xs : List Xfer) (res : List Byte → Result) {s : State} (h : P s) : P (s.primitive xs res) :=
  hP.complete _ _ _ (hP.bracket xs h)

theorem reject (code : BitVec 3) {s : State} (h : P s) : P (s.reject code) := hP.complete code .none s h

theorem readBuffer (op : WireOp) (pt : StartPoint) (k : Nat) {s : State} (h : P s) : P (s.readBuffer op pt k) := by
  unfold State.readBuffer
  split
  · exact hP.primitive _ _ h
  · exact hP.reject _ h

/-- Every instruction ends in a state that has the predicate, by its branches: a rejection, or its brackets followed by
completion. -/
theorem exec_endsIn (i : Instr) {s : State} (h : P s) : EndsIn P (exec i s) := by
  have prim xs res : EndsIn P (.next (s.primitive xs res)) := .next (hP.primitive xs res h)
  have rej code : EndsIn P (.next (s.reject code)) := .next (hP.reject code h)
  cases i with
  | write | rts | wWrite => exact .ite (prim _ _) (rej _)
  | rdrxb | setsid | seteid => exact .ite (rej _) (.ite (prim _ _) (rej _))
  | txframe =>
    have brackets12 xs ys := hP.bracket ys (hP.bracket xs h)
    exact .ite (rej _) (.ite (rej _) (.ite (.next (hP.primitive _ _ (brackets12 _ _))) (rej _)))
  | rxframe =>
    have brackets12 xs ys := hP.bracket ys (hP.bracket xs h)
    exact .ite (.next (hP.complete _ _ _ (hP.loadScratch _ _ _ (brackets12 _ _)))) (rej _)
  | wRdrxb0Id | wRdrxb0Data | wRdrxb1Id | wRdrxb1Data => exact .next (hP.readBuffer _ _ _ h)
  | reset | read | bitmod | rdstat | rxstat | wReset | wRead | wBitmod | wRdstat | wRxstat | wRts0 | wRts1 | wRts2 =>
    exact prim _ _

theorem exec {i : Instr} {s t : State} (h : P s) (he : exec i s = .next t) : P t := by
  obtain ⟨u, hu, hPu⟩ := hP.exec_endsIn i h
  cases he.symm.trans hu
  exact hPu

end ClosedUnderOps

/-! ## The parameters, who answers and the host's moves -/

/-- `t` has the parameters, the environment and the host moves of `s`: what an operation leaves alone. -/
structure State.SameSetup (s t : State) : Prop where
  params : t.params = s.params
  env    : t.env = s.env
  moves  : t.moves = s.moves

theorem State.SameSetup.trans {s t u : State} (h : s.SameSetup t) (h' : t.SameSetup u) : s.SameSetup u :=
  ⟨h'.params.trans h.params, h'.env.trans h.env, h'.moves.trans h.moves⟩

theorem xchg_sameSetup (b : Byte) (s : State) : s.SameSetup (s.xchg b).2 := by
  obtain ⟨_, _, _, h⟩ := xchg_spec b s
  rw [h]
  exact ⟨rfl, rfl, rfl⟩

theorem sameSetup_closed (s : State) : ClosedUnderOps s.SameSetup where
  select _ h := h.trans ⟨rfl, rfl, rfl⟩
  deselect _ h := h.trans ⟨rfl, rfl, rfl⟩
  xchg b t h := h.trans (xchg_sameSetup b t)
  loadScratch _ _ _ h := h.trans ⟨rfl, rfl, rfl⟩
  complete _ _ _ h := h.trans ⟨rfl, rfl, rfl⟩

theorem exec_sameSetup {i : Instr} {s t : State} (h : exec i s = .next t) : s.SameSetup t :=
  (sameSetup_closed s).exec ⟨rfl, rfl, rfl⟩ h

theorem act_sameSetup (a : Act) (s : State) : s.SameSetup (s.act a) := by
  cases a with
  | sel => exact ⟨rfl, rfl, rfl⟩
  | des => exact ⟨rfl, rfl, rfl⟩
  | xfer x =>
    cases x with
    | send b => exact xchg_sameSetup b s
    | recv => exact (xchg_sameSetup s.params.dummyTx s).trans ⟨rfl, rfl, rfl⟩

theorem finish_sameSetup (i : Instr) (s : State) : s.SameSetup (s.finish i) := by
  cases i <;> exact ⟨rfl, rfl, rfl⟩

theorem accept_sameSetup (i : Instr) (s : State) : s.SameSetup (s.accept i) := by
  obtain ⟨code, -, h⟩ | ⟨-, h⟩ := accept_spec i s
  · rw [h]; exact ⟨rfl, rfl, rfl⟩
  · rw [h]; exact ⟨rfl, rfl, rfl⟩

theorem tick_sameSetup (i : Instr) (s : State) : s.SameSetup (s.tick i) := by
  unfold State.tick
  split
  · exact finish_sameSetup i s
  next a _ =>
    have hact : s.SameSetup { s.act a with seq := s.seq + 1 } := (act_sameSetup a s).trans ⟨rfl, rfl, rfl⟩
    dsimp only
    split
    · exact hact
    · exact hact.trans (finish_sameSetup i _)

theorem blockReset_sameSetup (s : State) : s.SameSetup s.blockReset :=
  ⟨blockReset_params s, blockReset_env s, blockReset_moves s⟩

theorem undecoded_sameSetup {e : DecodeError} {s t : State} (h : s.undecoded e = .next t) : s.SameSetup t := by
  cases e with
  | reservedOp op => cases h; exact ⟨rfl, rfl, rfl⟩
  | emptyBracket | unknownOpcode | badLength => cases h

theorem issue_sameSetup {w : Presented} {s t : State} (h : s.issue w = .next t) : s.SameSetup t := by
  unfold State.issue at h
  split at h
  · exact exec_sameSetup h
  · exact undecoded_sameSetup h

theorem start_sameSetup {w : Presented} {s t : State} (h : s.start w = .next t) : s.SameSetup t := by
  unfold State.start at h
  split at h
  · cases h; exact accept_sameSetup _ s
  · exact undecoded_sameSetup h

theorem readFrame_sameSetup {s t : State} (h : s.readFrame = .next t) : s.SameSetup t := by
  unfold State.readFrame at h
  split at h
  · cases h; exact ⟨rfl, rfl, rfl⟩
  · cases h

/-- `t` has the setup of `s`, or of `s` without its first host move. -/
def State.SameSetupAfterMove (s t : State) : Prop :=
  s.SameSetup t ∨ ∃ m rest, s.moves = m :: rest ∧ { s with moves := rest }.SameSetup t

/-- An idle step leaves all three alone, but for the host move it takes (R20). -/
theorem idleStep_sameSetupAfterMove {s t : State} (h : s.idleStep = .next t) : s.SameSetupAfterMove t := by
  unfold State.idleStep at h
  split at h
  · cases h; exact .inl ⟨rfl, rfl, rfl⟩
  next m rest hm =>
    refine .inr ⟨m, rest, hm, ?_⟩
    cases m with
    | issue w => exact issue_sameSetup h
    | start w => exact start_sameSetup h
    | reset => cases h; exact blockReset_sameSetup _
    | readFrame => exact readFrame_sameSetup h
    | deliver n b => cases h; exact ⟨rfl, rfl, rfl⟩
    | wait => cases h; exact ⟨rfl, rfl, rfl⟩

/-- A busy step takes a reset or a wait from the host's moves, and no other move (R20, R242). -/
theorem busyStep_sameSetupAfterMove {i : Instr} {s t : State} (h : s.busyStep i = .next t) :
    s.SameSetupAfterMove t := by
  unfold State.busyStep at h
  split at h
  next rest hm => cases h; exact .inr ⟨_, rest, hm, blockReset_sameSetup _⟩
  next rest hm => cases h; exact .inr ⟨_, rest, hm, tick_sameSetup i _⟩
  · cases h; exact .inl (tick_sameSetup i s)

theorem step_sameSetupAfterMove {s t : State} (h : step s = .next t) : s.SameSetupAfterMove t := by
  unfold step State.next at h
  split at h
  · cases h
  · split at h
    · exact busyStep_sameSetupAfterMove h
    · exact idleStep_sameSetupAfterMove h

/-- Settles O28: a step is a host move taken from the list, or none, and then operations that leave all three alone. -/
theorem parametersNeverChange : Obligations.ParametersNeverChange := by
  intro s t h
  obtain ⟨hp, he, hm⟩ | ⟨m, rest, hcons, hp, he, hm⟩ := step_sameSetupAfterMove h
  · exact ⟨hp, he, .inl hm⟩
  · exact ⟨hp, he, .inr ⟨m, by rw [hcons, hm]⟩⟩

/-! ## The answers fixed in advance -/

@[simp] theorem answersOf_append (ev ev' : List Event) : answersOf (ev ++ ev') = answersOf ev ++ answersOf ev' := by
  induction ev with
  | nil => rfl
  | cons e ev ih => cases e <;> simp [answersOf, ih]

/-- From `s` to `t` the oracle answered: MOCK took no part, and the events issued carry, in order, the first of the
answers fixed in advance, as far as these last (R13, R63). -/
def State.Consumes (s t : State) : Prop :=
  t.env = .oracle ∧ t.mock = s.mock ∧ ∃ ev, t.trace = s.trace ++ ev ∧
    ((answersOf ev).length ≤ s.answers.length → s.answers = answersOf ev ++ t.answers)

theorem State.Consumes.trans {s t u : State} (h : s.Consumes t) (h' : t.Consumes u) : s.Consumes u := by
  obtain ⟨-, hm, ev, htr, hans⟩ := h
  obtain ⟨henv, hm', ev', htr', hans'⟩ := h'
  refine ⟨henv, hm'.trans hm, ev ++ ev', by rw [htr', htr, List.append_assoc], fun hle => ?_⟩
  simp only [answersOf_append, List.length_append] at hle
  have hs : s.answers = answersOf ev ++ t.answers := hans (by omega)
  have ht : t.answers = answersOf ev' ++ u.answers := hans' (by
    rw [hs, List.length_append] at hle
    omega)
  rw [answersOf_append, List.append_assoc, ← ht, hs]

/-- What issues events without an answer, and leaves the environment alone, consumes nothing. -/
theorem consumes_of_no_answer {s t : State} (henv : s.env = .oracle) (ev : List Event) (h0 : answersOf ev = [])
    (he : t.env = s.env) (hm : t.mock = s.mock) (ha : t.answers = s.answers) (htr : t.trace = s.trace ++ ev) :
    s.Consumes t :=
  ⟨he.trans henv, hm, ev, htr, fun _ => by rw [h0, ha]; rfl⟩

theorem xchg_of_answers_cons {s : State} {r : Byte} {rs : List Byte} (henv : s.env = .oracle)
    (hans : s.answers = r :: rs) (b : Byte) :
    s.xchg b = (r, { s with answers := rs, trace := s.trace ++ [.x b r] }) := by
  simp only [State.xchg, State.answer, henv, hans]

theorem xchg_of_answers_nil {s : State} (henv : s.env = .oracle) (hans : s.answers = []) (b : Byte) :
    s.xchg b = (oracleByte s.fresh,
      { s with fresh := s.fresh + 1, trace := s.trace ++ [.x b (oracleByte s.fresh)] }) := by
  simp only [State.xchg, State.answer, henv, hans]

/-- An exchange consumes the first answer, if one is left. -/
theorem xchg_consumes {s : State} (henv : s.env = .oracle) (b : Byte) : s.Consumes (s.xchg b).2 := by
  cases hans : s.answers with
  | nil =>
    rw [xchg_of_answers_nil henv hans]
    exact ⟨henv, rfl, _, rfl, fun hle => absurd hle (by simp [hans, answersOf])⟩
  | cons r rs =>
    rw [xchg_of_answers_cons henv hans]
    exact ⟨henv, rfl, _, rfl, fun _ => hans⟩

theorem select_mock_of_oracle {s : State} (henv : s.env = .oracle) : s.select.mock = s.mock := by
  simp only [State.select, henv]

theorem deselect_mock_of_oracle {s : State} (henv : s.env = .oracle) : s.deselect.mock = s.mock := by
  simp only [State.deselect, henv]

theorem consumes_closed (s : State) : ClosedUnderOps s.Consumes where
  select t h := h.trans
    (consumes_of_no_answer h.1 [.sel] rfl rfl (select_mock_of_oracle h.1) rfl rfl)
  deselect t h := h.trans
    (consumes_of_no_answer h.1 [.des] rfl rfl (deselect_mock_of_oracle h.1) rfl rfl)
  xchg b t h := h.trans (xchg_consumes h.1 b)
  loadScratch _ _ t h := h.trans (consumes_of_no_answer h.1 [] rfl rfl rfl rfl (by simp))
  complete _ _ t h := h.trans (consumes_of_no_answer h.1 [] rfl rfl rfl rfl (by simp))

/-- Settles O32: consuming in order is reflexive where the oracle answers, and every operation exec is made of
continues it. -/
theorem oracleAnswersAreConsumedInOrder : Obligations.OracleAnswersAreConsumedInOrder := by
  intro i s t henv h
  have hs : s.Consumes s := consumes_of_no_answer henv [] rfl rfl rfl rfl (by simp)
  obtain ⟨-, hm, ev, htr, hans⟩ := (consumes_closed s).exec hs h
  exact ⟨ev, htr, hm, hans⟩

/-! ## The default address map -/

/-- Settles O46: the indices are finitely many, and the map is the default. -/
theorem defaultAddressesOfBuffers : Obligations.DefaultAddressesOfBuffers :=
  ⟨by decide, by decide⟩

end Sys2Proof.Machine

/-! # What an accepted operation comes to: its brackets, then completion (10_state.md)

The meanings of Machine/RegisterProtocol.lean, FrameCodec.lean and Wire.lean and the plans of Machine/Sequencer.lean say
twice what an operation does. `exec_of_accepted` says that they agree: exec runs the operation's brackets and then
completes as the sequencer does. The statements about exec below are statements about `runBrackets` and `finish`. -/

namespace Sys2Proof.Machine

open Host (Outcome)
open Sys2Proof.Config

/-! ## Running brackets -/

@[simp] theorem bracket_params (xs : List Xfer) (s : State) : (s.bracket xs).2.params = s.params := by
  obtain ⟨_, _, _, _, _, h⟩ := bracket_spec xs s
  rw [h]

/-- The brackets run one after another: all bytes received, and the state. -/
def State.runBrackets : List (List Xfer) → State → List Byte × State
  | [], s => ([], s)
  | xs :: brs, s =>
    let a := s.bracket xs
    let r := a.2.runBrackets brs
    (a.1 ++ r.1, r.2)

/-- The brackets the operation issues from `s`: what a later one depends on is received in the first (R25). -/
def State.opBrackets (i : Instr) (s : State) : List (List Xfer) :=
  brackets s.params (s.bracket ((brackets s.params [] i).headD [])).1 i

/-- The state when the brackets have run and completion is due: the received bytes are those of the brackets. -/
def State.ranBrackets (i : Instr) (s : State) : State :=
  { (s.runBrackets (s.opBrackets i)).2 with rx := (s.runBrackets (s.opBrackets i)).1 }

/-- A primitive operation is its one bracket followed by its completion (R128). -/
theorem finish_ranBrackets_primitive {i : Instr} {xs : List Xfer} {res : List Byte → Result} {s : State}
    (hb : s.opBrackets i = [xs]) (hf : ∀ u : State, u.finish i = u.complete Status.ok (res u.rx)) :
    (s.ranBrackets i).finish i = s.primitive xs res := by
  rw [hf]
  simp only [State.ranBrackets, hb, State.runBrackets, List.append_nil]
  rfl

/-- The control byte is the one byte received in RXFRAME's first bracket. -/
theorem controlBracket_received (p : Params) (idx : Byte) (s : State) :
    ∃ c, (s.bracket (controlBracket p idx)).1 = [c] := by
  obtain ⟨rs, _, _, _, hl, h⟩ := bracket_spec (controlBracket p idx) s
  rw [h]
  match rs, hl with
  | [_, _, c], _ => exact ⟨c, rfl⟩

/-- RXFRAME's second bracket is chosen by the control byte its first received (R25, R158). -/
theorem opBrackets_rxframe (idx : Byte) (s : State) :
    s.opBrackets (.rxframe idx) = [controlBracket s.params idx,
      frameBracket idx (remoteFlag s.params (s.bracket (controlBracket s.params idx)).1)] := rfl

/-- The bytes two brackets received are those of the first, then those of the second; the state is the second's. -/
theorem ranBrackets_of_two {i : Instr} {xs ys : List Xfer} {s : State} (hb : s.opBrackets i = [xs, ys]) :
    s.ranBrackets i = { ((s.bracket xs).2.bracket ys).2 with
      rx := (s.bracket xs).1 ++ ((s.bracket xs).2.bracket ys).1 } := by
  simp only [State.ranBrackets, hb, State.runBrackets, List.append_nil]

/-- RXFRAME completes with the load of `SF` and a copy of it (R22, R158). -/
theorem finish_rxframe {idx : Byte} {rem : Bool} {bs : List Byte} {s : State} (hbs : s.rx.drop 1 = bs)
    (hrem : remoteFlag s.params s.rx = rem) :
    s.finish (.rxframe idx) =
      (s.loadScratch rem bs).complete Status.ok (.frame (decodeFrame rem bs s.fresh)) := by
  simp only [State.finish, hbs, hrem, loadScratch_sf]

/-- An RXFRAME that is not rejected runs its two brackets and completes with the load of `SF` (R158). -/
theorem exec_rxframe_of_accepted {idx : Byte} (s : State) (h : rxIndexOk idx = true) :
    exec (.rxframe idx) s = .next ((s.ranBrackets (.rxframe idx)).finish (.rxframe idx)) := by
  obtain ⟨c, hc⟩ := controlBracket_received s.params idx s
  rw [ranBrackets_of_two (opBrackets_rxframe idx s), hc,
    finish_rxframe (rem := remoteFlag s.params [c]) rfl (by simp only [bracket_params]; rfl)]
  simp only [exec, execRxframe, h, if_true, hc]
  rfl

/-- A check that is not the last one passes, and so does what follows, exactly when nothing is rejected. -/
theorem checkThen_eq_none {b : Bool} {code : BitVec 3} {o : Option (BitVec 3)} :
    (if !b then some code else o) = none ↔ b = true ∧ o = none := by
  cases b <;> simp

/-- The last check passes exactly when nothing is rejected. -/
theorem check_eq_none {b : Bool} {code : BitVec 3} : (if b then none else some code) = none ↔ b = true := by
  cases b <;> simp

/-- An operation that is not rejected runs its brackets and completes (R29, R128, R157, R158). -/
theorem exec_of_accepted {i : Instr} (s : State) (h : Instr.rejection i = none) :
    exec i s = .next ((s.ranBrackets i).finish i) := by
  have prim {xs res} (hb : s.opBrackets i = [xs]) (hf : ∀ u : State, u.finish i = u.complete Status.ok (res u.rx))
      (he : exec i s = .next (s.primitive xs res)) : exec i s = .next ((s.ranBrackets i).finish i) := by
    rw [he, finish_ranBrackets_primitive hb hf]
  cases i with
  | reset | read | bitmod | rdstat | rxstat | wReset | wRead | wBitmod | wRdstat | wRxstat | wRts0 | wRts1 | wRts2 =>
    exact prim rfl (fun _ => rfl) rfl
  | write | rts | wWrite => exact prim rfl (fun _ => rfl) (if_pos (check_eq_none.1 h))
  | wRdrxb0Id | wRdrxb0Data | wRdrxb1Id | wRdrxb1Data =>
    exact prim rfl (fun _ => rfl) (congrArg _ (if_pos (check_eq_none.1 h)))
  | rdrxb | setsid | seteid =>
    obtain ⟨hidx, hlast⟩ := checkThen_eq_none.1 h
    exact prim rfl (fun _ => rfl) ((if_neg (by simp [hidx])).trans (if_pos (check_eq_none.1 hlast)))
  | txframe =>
    obtain ⟨hidx, hrest⟩ := checkThen_eq_none.1 h
    obtain ⟨hlen, hlast⟩ := checkThen_eq_none.1 hrest
    exact (if_neg (by simp [hidx])).trans ((if_neg (by simp [hlen])).trans (if_pos (check_eq_none.1 hlast)))
  | rxframe => exact exec_rxframe_of_accepted s (check_eq_none.1 h)

/-- Where the last check rejects, the meaning ends in that rejection. -/
theorem check_rejects {b : Bool} {c code : BitVec 3} {o : Outcome State Fault Refusal} {s : State}
    (h : (if b then none else some c) = some code) :
    (if b then o else .next (s.reject c)) = .next (s.rejectedWith code) := by
  cases b <;> cases h
  rfl

/-- Where a check rejects, or what follows it does, the meaning ends in the first rejection (R220). -/
theorem checkThen_rejects {b : Bool} {c code : BitVec 3} {r : Option (BitVec 3)} {o : Outcome State Fault Refusal}
    {s : State} (h : (if !b then some c else r) = some code) (hr : r = some code → o = .next (s.rejectedWith code)) :
    (if !b then .next (s.reject c) else o) = .next (s.rejectedWith code) := by
  cases b with
  | false => cases h; rfl
  | true => exact hr h

/-- A bracket whose length is out of range is rejected (R127, R214). -/
theorem readBuffer_rejects {op : WireOp} {pt : StartPoint} {k : Nat} {code : BitVec 3} {s : State}
    (h : (if readLenOk pt k then none else some Status.errLen) = some code) :
    s.readBuffer op pt k = s.rejectedWith code := by
  unfold State.readBuffer
  split at h
  · cases h
  next hl => cases h; exact if_neg hl

/-- A rejected operation is its rejection, whatever the state (R210, R220). -/
theorem exec_of_rejected {i : Instr} {code : BitVec 3} (s : State) (h : Instr.rejection i = some code) :
    exec i s = .next (s.rejectedWith code) := by
  cases i with
  | reset | read | bitmod | rdstat | rxstat | wReset | wRead | wBitmod | wRdstat | wRxstat | wRts0 | wRts1 | wRts2 =>
    cases h
  | write | rts | wWrite | rxframe => exact check_rejects h
  | rdrxb | setsid | seteid => exact checkThen_rejects h check_rejects
  | txframe => exact checkThen_rejects h fun h => checkThen_rejects h check_rejects
  | wRdrxb0Id | wRdrxb0Data | wRdrxb1Id | wRdrxb1Data => exact congrArg _ (readBuffer_rejects h)

/-- What an instruction does, said once: its rejection, or its brackets and its completion. -/
theorem exec_cases {i : Instr} {s t : State} (h : exec i s = .next t) :
    (∃ code, Instr.rejection i = some code ∧ t = s.rejectedWith code) ∨
    (Instr.rejection i = none ∧ t = (s.ranBrackets i).finish i) := by
  cases hr : Instr.rejection i with
  | some code => cases (exec_of_rejected s hr).symm.trans h; exact .inl ⟨code, rfl, rfl⟩
  | none => cases (exec_of_accepted s hr).symm.trans h; exact .inr ⟨rfl, rfl⟩

/-- A check that is not the last rejects with its own code, or leaves the rejection to what follows. -/
theorem checkThen_code {b : Bool} {c code : BitVec 3} {r : Option (BitVec 3)}
    (h : (if !b then some c else r) = some code) : code = c ∨ r = some code := by
  cases b with
  | false => cases h; exact .inl rfl
  | true => exact .inr h

/-- The last check rejects with its own code. -/
theorem check_code {b : Bool} {c code : BitVec 3} (h : (if b then none else some c) = some code) : code = c := by
  cases b <;> cases h
  rfl

/-- The codes of a rejection (R212 to R214). -/
theorem rejection_code {i : Instr} {code : BitVec 3} (h : Instr.rejection i = some code) :
    code = Status.errIndex ∨ code = Status.errLen ∨ code = Status.errId := by
  cases i with
  | reset | read | bitmod | rdstat | rxstat | wReset | wRead | wBitmod | wRdstat | wRxstat | wRts0 | wRts1 | wRts2 =>
    cases h
  | rts | rxframe => exact .inl (check_code h)
  | write | wWrite | wRdrxb0Id | wRdrxb0Data | wRdrxb1Id | wRdrxb1Data => exact .inr (.inl (check_code h))
  | rdrxb => exact (checkThen_code h).imp_right fun h => .inl (check_code h)
  | setsid | seteid => exact (checkThen_code h).imp_right fun h => .inr (check_code h)
  | txframe => exact (checkThen_code h).imp_right fun h => (checkThen_code h).imp_right check_code

theorem rejection_code_ne_zero {i : Instr} {code : BitVec 3} (h : Instr.rejection i = some code) : code ≠ 0 := by
  obtain rfl | rfl | rfl := rejection_code h <;> decide

/-- The codes of a rejection are legal (R27). -/
theorem rejection_code_le {i : Instr} {code : BitVec 3} (h : Instr.rejection i = some code) : code.toNat ≤ 4 := by
  obtain rfl | rfl | rfl := rejection_code h <;> decide

/-! ## Completion -/

@[simp] theorem finish_status (i : Instr) (s : State) : (s.finish i).status = Status.ok := by cases i <;> rfl
@[simp] theorem finish_cur (i : Instr) (s : State) : (s.finish i).cur = none := by cases i <;> rfl
@[simp] theorem finish_seq (i : Instr) (s : State) : (s.finish i).seq = 0 := by cases i <;> rfl
@[simp] theorem finish_rx (i : Instr) (s : State) : (s.finish i).rx = [] := by cases i <;> rfl
@[simp] theorem finish_cs (i : Instr) (s : State) : (s.finish i).cs = s.cs := by cases i <;> rfl
@[simp] theorem finish_trace (i : Instr) (s : State) : (s.finish i).trace = s.trace := by cases i <;> rfl

/-! ## Nothing an operation issues depends on the block's bookkeeping (R24, R26) -/

theorem runBrackets_keeping (brs : List (List Xfer)) (s b : State) :
    (s.keeping b).runBrackets brs = ((s.runBrackets brs).1, (s.runBrackets brs).2.keeping b) := by
  induction brs generalizing s with
  | nil => rfl
  | cons xs brs ih => simp only [State.runBrackets, bracket_keeping, ih]

theorem opBrackets_keeping (i : Instr) (s b : State) : (s.keeping b).opBrackets i = s.opBrackets i := by
  simp only [State.opBrackets, bracket_keeping]
  rfl

/-- The brackets run the same from another bookkeeping, and leave that as it is. -/
theorem ranBrackets_keeping (i : Instr) (s b : State) :
    (s.keeping b).ranBrackets i = { (s.ranBrackets i).keeping b with rx := (s.ranBrackets i).rx } := by
  simp only [State.ranBrackets, opBrackets_keeping, runBrackets_keeping]
  rfl

/-- Completion from another bookkeeping with the same received bytes: only the host's moves and an `SF` that is not
written show it. -/
theorem finish_keeping (i : Instr) (s b : State) :
    { s.keeping b with rx := s.rx }.finish i = { s.finish i with
      moves := b.moves, sf := if ∃ idx, i = .rxframe idx then (s.finish i).sf else b.sf } := by
  by_cases h : ∃ idx, i = .rxframe idx
  · obtain ⟨idx, rfl⟩ := h
    rw [if_pos ⟨idx, rfl⟩]
    rfl
  · rw [if_neg h]
    cases i with
    | rxframe idx => exact absurd ⟨idx, rfl⟩ h
    | _ => rfl

/-- An instruction run from another bookkeeping shows it in the host's moves alone, and in `SF` unless it writes
that. -/
theorem exec_keeping {i : Instr} {s t : State} (b : State) (h : exec i s = .next t) :
    exec i (s.keeping b) = .next { t with
      moves := b.moves, sf := if (∃ idx, i = .rxframe idx) ∧ t.status = 0 then t.sf else b.sf } := by
  obtain ⟨code, hr, rfl⟩ | ⟨hr, rfl⟩ := exec_cases h
  · rw [exec_of_rejected _ hr, if_neg fun h => rejection_code_ne_zero hr h.2]
    rfl
  · rw [exec_of_accepted _ hr, ranBrackets_keeping, finish_keeping]
    simp [Status.ok]

/-- Where the bookkeeping agrees in `SF` and the host's moves, nothing shows. -/
theorem exec_keeping_eq (i : Instr) {s b : State} (hsf : b.sf = s.sf) (hmoves : b.moves = s.moves) :
    exec i (s.keeping b) = exec i s := by
  obtain ⟨t, h⟩ := exec_next i s
  rw [exec_keeping b h, hsf, hmoves]
  exact (exec_keeping s h).symm

/-- Settles O26: neither field is among those in which another bookkeeping shows. -/
theorem statusAndResultAreNeverRead : Obligations.StatusAndResultAreNeverRead := fun i s code res =>
  exec_keeping_eq i (b := { s with status := code, result := res }) rfl rfl

/-- From another `SF` the outcome is the same but for an `SF` that is not written. -/
theorem exec_otherScratch {i : Instr} {s t : State} (f : ScratchFrame) (h : exec i s = .next t) :
    exec i { s with sf := f } =
      .next { t with sf := if (∃ idx, i = .rxframe idx) ∧ t.status = 0 then t.sf else f } := by
  have hmoves : t.moves = s.moves := (exec_sameSetup h).moves
  refine (exec_keeping { s with sf := f } h).trans ?_
  rw [← hmoves]

/-- Settles O27: `SF` shows in the outcome only where it is not written, and there it is the one before. -/
theorem scratchFrameIsRxframesAlone : Obligations.ScratchFrameIsRxframesAlone := by
  intro i s t h
  have kept (hn : (∀ idx, i ≠ .rxframe idx) ∨ t.status ≠ 0) (f : ScratchFrame) :
      exec i { s with sf := f } = .next { t with sf := f } := by
    have hno : ¬((∃ idx, i = .rxframe idx) ∧ t.status = 0) :=
      fun ⟨⟨idx, hi⟩, h0⟩ => hn.elim (fun hne => hne idx hi) fun hne => hne h0
    rw [exec_otherScratch f h, if_neg hno]
  refine ⟨fun hn => ?_, fun f => ⟨fun hn => kept hn f, fun hi h0 => ?_⟩⟩
  · have hself : Outcome.next t = .next { t with sf := s.sf } := h.symm.trans (kept hn s.sf)
    rw [Outcome.next.inj hself]
  · rw [exec_otherScratch f h, if_pos ⟨hi, h0⟩]

/-! ## Whole brackets (R28, R63, R128) -/

/-- The exchanges begin with the byte of a listed opcode (R82). -/
def BeginsWithOpcode (xs : List Xfer) : Prop := ∃ (op : WireOp) (rest : List Xfer), xs = .send op.byte :: rest

/-- Every bracket begins with the byte of a listed opcode (R82, R99). -/
theorem brackets_beginWithOpcode (p : Params) (rx : List Byte) (i : Instr) :
    ∀ xs ∈ brackets p rx i, BeginsWithOpcode xs := by
  cases i with
  | txframe =>
    exact List.forall_mem_cons.2 ⟨⟨_, _, rfl⟩, List.forall_mem_cons.2 ⟨⟨_, _, rfl⟩,
      List.forall_mem_singleton.2 ⟨_, _, rfl⟩⟩⟩
  | rxframe => exact List.forall_mem_cons.2 ⟨⟨_, _, rfl⟩, List.forall_mem_singleton.2 ⟨_, _, rfl⟩⟩
  | _ => exact List.forall_mem_singleton.2 ⟨_, _, rfl⟩

/-- The events of whole brackets, each given by the bytes it sends and the bytes answered. -/
def wholeBrackets (prs : List (List Byte × List Byte)) : List Event :=
  (prs.map fun b => bracketEvents b.1 b.2).flatten

/-- The brackets issue their events in order, one answer per byte sent, and leave a deselected chip deselected. -/
theorem runBrackets_spec (brs : List (List Xfer)) (s : State) :
    ∃ prs : List (List Byte × List Byte),
      (s.runBrackets brs).2.trace = s.trace ++ wholeBrackets prs ∧
      prs.map (·.1) = brs.map (sentOf s.params.dummyTx) ∧
      (∀ b ∈ prs, b.1.length = b.2.length) ∧
      (s.cs = .deselected → (s.runBrackets brs).2.cs = .deselected) := by
  induction brs generalizing s with
  | nil => exact ⟨[], by simp [State.runBrackets, wholeBrackets], rfl, List.forall_mem_nil _, id⟩
  | cons xs brs ih =>
    obtain ⟨rs, mock, answers, fresh, hl, hb⟩ := bracket_spec xs s
    obtain ⟨prs, htr, hsent, hlen, hcs⟩ := ih (s.bracket xs).2
    rw [hb] at htr hsent hcs
    refine ⟨(sentOf s.params.dummyTx xs, rs) :: prs, ?_, ?_, ?_, fun _ => ?_⟩
    · simp only [State.runBrackets, hb, htr]
      simp [wholeBrackets]
    · simp [hsent]
    · exact List.forall_mem_cons.2 ⟨by simp [hl], hlen⟩
    · simp only [State.runBrackets, hb]
      exact hcs rfl

theorem sentOf_ne_nil {d : Byte} {xs : List Xfer} (h : BeginsWithOpcode xs) : sentOf d xs ≠ [] := by
  obtain ⟨op, rest, rfl⟩ := h
  simp [sentOf]

/-- Settles O30: an accepted operation issues its brackets, each of which begins with an opcode, and a rejected one
issues none. -/
theorem operationsIssueWholeBrackets : Obligations.OperationsIssueWholeBrackets := by
  intro i s t h
  obtain ⟨code, -, rfl⟩ | ⟨-, rfl⟩ := exec_cases h
  · exact ⟨[], by simp [State.rejectedWith], List.forall_mem_nil _, id⟩
  · obtain ⟨prs, htr, hsent, hlen, hcs⟩ := runBrackets_spec (s.opBrackets i) s
    refine ⟨prs, (finish_trace i _).trans htr, fun b hb => ⟨?_, hlen b hb⟩, fun h0 => (finish_cs i _).trans (hcs h0)⟩
    have hmem : b.1 ∈ (s.opBrackets i).map (sentOf s.params.dummyTx) := hsent ▸ List.mem_map_of_mem hb
    obtain ⟨xs, hxs, hsentOf⟩ := List.mem_map.1 hmem
    exact hsentOf ▸ sentOf_ne_nil (brackets_beginWithOpcode _ _ _ xs hxs)

end Sys2Proof.Machine

/-! # The command port's operands, and the idle block (10_state.md R20, R21, R24, R41) -/

namespace Sys2Proof.Machine

open Host (Outcome)
open Sys2Proof.Config

/-! ## Operands that are not read -/

/-- A WRITE sends `LEN` bytes of `WBUF` and reads no other (R21, R122). -/
theorem exec_write_congr {a len : Byte} {v w : Vector Byte 13}
    (h : v.toList.take len.toNat = w.toList.take len.toNat) (s : State) :
    exec (.write a len v) s = exec (.write a len w) s := by
  simp only [exec, execWrite, h]

/-- A data frame sends `F.dataLength` bytes of `F.data`, a remote frame none (R21, R157). -/
theorem dataBracket_congr {f : CanFrame} {data : Vector Byte 8} (p : Params) (idx : Byte)
    (h : f.isRemote = false → f.data.toList.take f.dataLength.toNat = data.toList.take f.dataLength.toNat) :
    dataBracket p idx f = dataBracket p idx { f with data := data } := by
  unfold dataBracket
  cases hr : f.isRemote with
  | false => simp [h hr]
  | true => rfl

/-- A TXFRAME reads no other byte of the payload (R21, R157). -/
theorem exec_txframe_congr {f : CanFrame} {data : Vector Byte 8} (idx : Byte)
    (h : f.isRemote = false → f.data.toList.take f.dataLength.toNat = data.toList.take f.dataLength.toNat)
    (s : State) : exec (.txframe idx f) s = exec (.txframe idx { f with data := data }) s := by
  simp only [exec, execTxframe, dataBracket_congr s.params idx h]

/-- Settles O8: what the decoder takes from the port agrees, but for the two payloads, of which only the bytes sent are
read. -/
theorem operandsNotReadDoNotMatter : Obligations.OperandsNotReadDoNotMatter := by
  rintro p q s ⟨hop, h⟩
  simp only [State.issue, decode, decodeCommand, ← hop]
  generalize p.op.toNat = op at h ⊢
  match op, h with
  | 0x0, _ | 0x4, _ | 0x5, _ | _ + 0xC, _ => rfl
  | 0x1, haddr => simp only [show p.addr = q.addr from haddr]
  | 0x6, hidx | 0xB, hidx => simp only [show p.idx = q.idx from hidx]
  | 0x2, ⟨haddr, hlen, hwbuf⟩ =>
    simp only [← haddr, ← hlen]
    exact exec_write_congr hwbuf s
  | 0x3, ⟨haddr, hmask, hval⟩ => simp only [haddr, hmask, hval]
  | 0x7, ⟨hidx, hpt, hlen⟩ => simp only [hidx, hpt, hlen]
  | 0x8, ⟨hidx, hid⟩ | 0x9, ⟨hidx, hid⟩ => simp only [hidx, hid]
  | 0xA, ⟨hidx, htype, hremote, hid, hlen, hdata⟩ =>
    simp only [← hidx]
    refine (exec_txframe_congr p.idx hdata s).trans ?_
    rw [htype, hremote, hid, hlen]

/-! ## A step of the idle block -/

/-- The step of a ready block takes the host's next move (R20). -/
theorem step_of_ready {s : State} (h : s.ready) : step s = s.idleStep := by
  obtain ⟨hcur, hmock⟩ := h
  simp only [step, State.next, hmock, hcur]
  rfl

/-- Settles O39: the move is decoded to the instruction, which is run, or accepted. -/
theorem stepRunsDecodedInstruction : Obligations.StepRunsDecodedInstruction := by
  intro s w i ms hready hdec
  refine ⟨fun hm => ?_, fun hm => ?_⟩
  · simp only [step_of_ready hready, State.idleStep, hm, State.issue, hdec]
  · simp only [step_of_ready hready, State.idleStep, hm, State.start, hdec]
    obtain ⟨code, hr, hacc⟩ | ⟨hr, hacc⟩ := accept_spec i { s with moves := ms }
    · simp only [hacc, hr]
    · simp only [hacc, hr]

/-- Settles O40: the move is the read, whose two branches these are. -/
theorem readingInvalidScratchFrameFaults : Obligations.ReadingInvalidScratchFrameFaults := by
  intro s ms hready hm
  simp only [step_of_ready hready, State.idleStep, hm, State.readFrame]

/-- Settles O35: the reset state is written out, and its step has no move to take. -/
theorem nothingRunsAfterReset : Obligations.NothingRunsAfterReset :=
  ⟨rfl, rfl, rfl, rfl, rfl, step_of_ready ⟨rfl, rfl⟩⟩

/-- Settles O34: each part of the invariant at the values R41 and the log entries 7, 8 and 18 give. -/
theorem resetHasInvariant : Obligations.ResetHasInvariant where
  traceOk := rfl
  flightOk := ⟨rfl, rfl, rfl⟩
  statusOk := Nat.zero_le 4
  sfOk := ⟨fun _ => Nat.zero_le _, fun h => nomatch h⟩
  memOk := reset_mem_wf

end Sys2Proof.Machine

/-! # The busy block: one event per step (10_state.md R25, R28, R29) -/

namespace Sys2Proof.Machine

open Host (Outcome)
open Sys2Proof.Config

/-! ## What an event does -/

@[simp] theorem recvCount_append (as as' : List Act) : recvCount (as ++ as') = recvCount as + recvCount as' := by
  simp [recvCount]

theorem recvCount_le_of_sublist {as as' : List Act} (h : as.Sublist as') : recvCount as ≤ recvCount as' :=
  (h.filter _).length_le

/-- The event of the operation in progress and the advance of `SEQ` (R25). -/
def State.advance (a : Act) (s : State) : State := { s.act a with seq := s.seq + 1 }

/-- An exchange leaves chip select alone, where it is legal at all (R28). -/
theorem actStep_xfer {c c' : ChipSelect} {x : Xfer} (h : actStep (some c) (.xfer x) = some c') : c = c' := by
  cases c <;> cases h
  rfl

/-- One event is issued into the trace, legal where the planned event is (R28); else only `SEQ`, chip select, the
environment and, where a byte is received, the received bytes change. -/
theorem advance_spec (a : Act) (s : State) :
    ∃ cs bs mock answers fresh e,
      s.advance a = { s with
        cs := cs, seq := s.seq + 1, rx := s.rx ++ bs, mock := mock, answers := answers, fresh := fresh
        trace := s.trace ++ [e] } ∧
      bs.length = recvCount [a] ∧ csStep (some s.cs) e = actStep (some s.cs) a ∧
      ∀ c, actStep (some s.cs) a = some c → cs = c := by
  cases a with
  | sel =>
    refine ⟨.selected, [], s.select.mock, s.answers, s.fresh, .sel, ?_, rfl, ?_, fun c h => ?_⟩
    · simp [State.advance, State.act, State.select]
    · cases s.cs <;> rfl
    · cases hcs : s.cs <;> rw [hcs] at h <;> cases h
      rfl
  | des =>
    refine ⟨.deselected, [], s.deselect.mock, s.answers, s.fresh, .des, ?_, rfl, ?_, fun c h => ?_⟩
    · simp [State.advance, State.act, State.deselect]
    · cases s.cs <;> rfl
    · cases hcs : s.cs <;> rw [hcs] at h <;> cases h
      rfl
  | xfer x =>
    have legal (t r : Byte) : csStep (some s.cs) (.x t r) = actStep (some s.cs) (.xfer x) := by
      cases s.cs <;> rfl
    cases x with
    | send t =>
      obtain ⟨mock, answers, fresh, h⟩ := xchg_spec t s
      refine ⟨s.cs, [], mock, answers, fresh, .x t (s.xchg t).1, ?_, rfl, legal _ _, fun c => actStep_xfer⟩
      simp only [State.advance, State.act, List.append_nil]
      rw [h]
    | recv =>
      obtain ⟨mock, answers, fresh, h⟩ := xchg_spec s.params.dummyTx s
      refine ⟨s.cs, [(s.xchg s.params.dummyTx).1], mock, answers, fresh,
        .x s.params.dummyTx (s.xchg s.params.dummyTx).1, ?_, rfl, legal _ _, fun c => actStep_xfer⟩
      simp only [State.advance, State.act]
      rw [h]

/-- An event keeps MOCK's registers in canonical form (R70). -/
theorem advance_memOk (a : Act) {s : State} (h : s.memOk) : (s.advance a).memOk := by
  cases a with
  | sel => exact select_memOk (s := s) h
  | des => exact deselect_memOk (s := s) h
  | xfer x =>
    cases x with
    | send t => exact xchg_memOk (t := t) h
    | recv => exact xchg_memOk (t := s.params.dummyTx) h

/-! ## The plan of an operation -/

theorem actsAfter_append_singleton (as : List Act) (a : Act) :
    actsAfter (as ++ [a]) = actStep (actsAfter as) a := by
  simp [actsAfter]

/-- The events of brackets are legal and leave the chip deselected (R28). -/
theorem actsAfter_bracketActs (brs : List (List Xfer)) :
    actsAfter (brs.map bracketActs).flatten = some .deselected := by
  have xfers (xs : List Xfer) : (xs.map Act.xfer).foldl actStep (some .selected) = some .selected := by
    induction xs with
    | nil => rfl
    | cons x xs ih => exact ih
  induction brs with
  | nil => rfl
  | cons xs brs ih =>
    simpa [actsAfter, bracketActs, actStep, xfers] using ih

/-- What is legal is legal as far as it goes. -/
theorem actsAfter_take {as : List Act} {c : ChipSelect} (h : actsAfter as = some c) (k : Nat) :
    ∃ c', actsAfter (as.take k) = some c' := by
  have illegal (bs : List Act) : bs.foldl actStep none = none := by
    induction bs with
    | nil => rfl
    | cons b bs ih => exact ih
  refine Option.ne_none_iff_exists'.1 fun hnone => ?_
  rw [← List.take_append_drop k as, actsAfter, List.foldl_append, ← actsAfter, hnone, illegal] at h
  cases h

theorem plan_ne_nil (p : Params) (rx : List Byte) (i : Instr) : 0 < (plan p rx i).length := by
  cases i <;> exact Nat.succ_pos _

theorem plan_rxframe (p : Params) (rx : List Byte) (idx : Byte) :
    plan p rx (.rxframe idx) =
      bracketActs (controlBracket p idx) ++ bracketActs (frameBracket idx (remoteFlag p rx)) := by
  simp [plan, brackets]

/-- While RXFRAME has received no byte it is at most at the event that receives the control byte. -/
theorem rxframe_seq_le {p : Params} {rx : List Byte} {idx : Byte} {k : Nat}
    (h : recvCount ((plan p rx (.rxframe idx)).take k) = 0) : k ≤ 3 := by
  by_contra hk
  have hle := recvCount_le_of_sublist
    (List.take_prefix_take_left (l := plan p rx (.rxframe idx)) (show 4 ≤ k by omega)).sublist
  rw [h, plan_rxframe, List.take_append_of_le_length (show 4 ≤ 5 by decide)] at hle
  exact absurd (show 1 ≤ 0 from hle) (by decide)

/-- What is still to be received does not matter to the event at hand, nor to whether another follows it: only RXFRAME's
second bracket depends on a received byte, and that is received in its first (R25). -/
theorem plan_of_received {p : Params} {rx rx' rx'' : List Byte} {i : Instr} {k : Nat} (hpre : rx <+: rx')
    (hlen : rx.length = recvCount ((plan p rx'' i).take k)) :
    (plan p rx' i).take (k + 1) = (plan p rx i).take (k + 1) ∧
    (k + 1 < (plan p rx' i).length ↔ k + 1 < (plan p rx i).length) := by
  cases i with
  | rxframe idx =>
    cases rx with
    | nil =>
      have hk : k ≤ 3 := rxframe_seq_le hlen.symm
      have hctrl : (bracketActs (controlBracket p idx)).length = 5 := rfl
      simp only [plan_rxframe, List.length_append, hctrl]
      exact ⟨by rw [List.take_append_of_le_length (by omega), List.take_append_of_le_length (by omega)], by omega⟩
    | cons c rs =>
      obtain ⟨bs, rfl⟩ := hpre
      exact ⟨rfl, Iff.rfl⟩
  | _ => exact ⟨rfl, Iff.rfl⟩

/-! ## A step of the busy block -/

/-- The event at `SEQ`, after which the operation goes on or completes (R25). -/
theorem tick_of_event {i : Instr} {s : State} {a : Act} (h : (plan s.params s.rx i)[s.seq]? = some a) :
    s.tick i =
      if s.seq + 1 < (plan s.params (s.advance a).rx i).length then s.advance a else (s.advance a).finish i := by
  have hparams : (s.advance a).params = s.params := (act_sameSetup a s).params
  rw [← hparams]
  simp only [State.tick, h]
  rfl

/-- The busy block takes no host move but a wait, unless the reset is next (R20, R242). -/
theorem busyStep_of_no_reset {s : State} (i : Instr) (h : s.moves.head? ≠ some Move.reset) :
    s.busyStep i =
      .next ({ s with moves := if s.moves.head? = some Move.wait then s.moves.tail else s.moves }.tick i) := by
  unfold State.busyStep
  split
  next hm => exact absurd (by rw [hm]; rfl) h
  next hm => simp [hm]
  next hm =>
    have hw : s.moves.head? ≠ some Move.wait := fun hw => by
      obtain ⟨rest, hr⟩ := List.head?_eq_some_iff.1 hw
      exact hm rest hr
    rw [if_neg hw]

/-- The step of a busy block. -/
theorem step_of_busy {s : State} {i : Instr} (hcur : s.cur = some i) (hmock : s.mockStopped = false) :
    step s = s.busyStep i := by
  simp only [step, State.next, hmock, hcur]
  rfl

/-- One event of the operation in progress: the block stays with it, or completes with `OK` (R25). -/
theorem tick_issues_one_event {i : Instr} {s : State} (hcur : s.cur = some i)
    (hseq : s.seq < (plan s.params s.rx i).length) :
    ∃ e, (s.tick i).trace = s.trace ++ [e] ∧
      (((s.tick i).cur = some i ∧ (s.tick i).seq = s.seq + 1 ∧ (s.tick i).status = s.status) ∨
        ((s.tick i).cur = none ∧ (s.tick i).status = 0)) := by
  obtain ⟨cs, bs, mock, answers, fresh, e, hadv, -⟩ := advance_spec (plan s.params s.rx i)[s.seq] s
  refine ⟨e, ?_⟩
  rw [tick_of_event (List.getElem?_eq_getElem hseq)]
  split
  · rw [hadv]
    exact ⟨rfl, .inl ⟨hcur, rfl, rfl⟩⟩
  · rw [finish_trace, hadv]
    exact ⟨rfl, .inr ⟨finish_cur i _, finish_status i _⟩⟩

/-- The flight part of the invariant of a busy block. -/
theorem flightOk_of_busy {s : State} {i : Instr} (hcur : s.cur = some i) :
    s.flightOk ↔
      Instr.rejection i = none ∧ s.seq < (plan s.params s.rx i).length ∧
      actsAfter ((plan s.params s.rx i).take s.seq) = some s.cs ∧
      s.rx.length = recvCount ((plan s.params s.rx i).take s.seq) := by
  simp only [State.flightOk, hcur]

/-- The flight part of the invariant of an idle block. -/
theorem flightOk_of_idle {s : State} (hcur : s.cur = none) :
    s.flightOk ↔ s.cs = .deselected ∧ s.seq = 0 ∧ s.rx = [] := by
  simp only [State.flightOk, hcur]

/-- Settles O38: by the invariant the event at `SEQ` exists, and the step is that event. -/
theorem busyBlockIssuesOneEvent : Obligations.BusyBlockIssuesOneEvent := by
  intro s i hinv hmock hcur hmoves
  obtain ⟨-, hseq, -⟩ := (flightOk_of_busy hcur).1 hinv.flightOk
  obtain ⟨e, htr, hend⟩ := tick_issues_one_event
    (s := { s with moves := if s.moves.head? = some Move.wait then s.moves.tail else s.moves }) hcur hseq
  exact ⟨_, e, (step_of_busy hcur hmock).trans (busyStep_of_no_reset i hmoves), htr, (tick_sameSetup i _).moves, hend⟩

/-! ## Every step keeps the invariant -/

/-- The host's moves are no part of the invariant. -/
theorem inv_with_moves {s : State} (h : s.Inv) (ms : List Move) : { s with moves := ms }.Inv :=
  ⟨h.traceOk, h.flightOk, h.statusOk, h.sfOk, h.memOk⟩

/-- Completion in a deselected block ends in the invariant, whatever was in flight. -/
theorem complete_inv {s : State} {code : BitVec 3} (res : Result) (htrace : s.traceOk) (hcs : s.cs = .deselected)
    (hcode : code.toNat ≤ 4) (hsf : s.sf.ok) (hmem : s.memOk) : (s.complete code res).Inv :=
  ⟨htrace, ⟨hcs, rfl, rfl⟩, hcode, hsf, hmem⟩

/-- The completion of an operation ends in the invariant. -/
theorem finish_inv {s : State} (i : Instr) (htrace : s.traceOk) (hcs : s.cs = .deselected) (hsf : s.sf.ok)
    (hmem : s.memOk) : (s.finish i).Inv := by
  have hok : Status.ok.toNat ≤ 4 := by decide
  cases i with
  | rxframe idx =>
    exact complete_inv _ (s := s.loadScratch (remoteFlag s.params s.rx) (s.rx.drop 1)) htrace hcs hok
      (decodeFrame_ok _ _ _) hmem
  | _ => exact complete_inv _ htrace hcs hok hsf hmem

theorem csAfter_append_singleton (tr : List Event) (e : Event) : csAfter (tr ++ [e]) = csStep (csAfter tr) e := by
  simp [csAfter]

/-- The events of a whole bracket are legal from a deselected chip, and leave it deselected (R28). -/
theorem csAfter_wholeBrackets {tr : List Event} (h : csAfter tr = some .deselected)
    (prs : List (List Byte × List Byte)) : csAfter (tr ++ wholeBrackets prs) = some .deselected := by
  have xs (ts rs : List Byte) :
      (List.zipWith Event.x ts rs).foldl csStep (some .selected) = some .selected := by
    induction ts generalizing rs with
    | nil => rfl
    | cons t ts ih =>
      cases rs with
      | nil => rfl
      | cons r rs => exact ih rs
  induction prs generalizing tr with
  | nil => simpa [wholeBrackets] using h
  | cons b prs ih =>
    have hb : csAfter (tr ++ bracketEvents b.1 b.2) = some .deselected := by
      have hx := xs b.1 b.2
      rw [csAfter, List.foldl_append, ← csAfter, h, bracketEvents, List.foldl_append, List.foldl_cons]
      change csStep ((List.zipWith Event.x b.1 b.2).foldl csStep (some .selected)) .des = some .deselected
      rw [hx]
      rfl
    simpa [wholeBrackets] using ih hb

/-- An event of the operation in progress keeps the invariant. -/
theorem tick_inv {s : State} {i : Instr} (hcur : s.cur = some i) (h : s.Inv) : (s.tick i).Inv := by
  obtain ⟨hrej, hseq, hacts, hrx⟩ := (flightOk_of_busy hcur).1 h.flightOk
  have hlast : (plan s.params s.rx i).take (s.seq + 1) =
      (plan s.params s.rx i).take s.seq ++ [(plan s.params s.rx i)[s.seq]] := by
    rw [List.take_add_one, List.getElem?_eq_getElem hseq]
    rfl
  obtain ⟨c, hc⟩ := actsAfter_take (actsAfter_bracketActs (brackets s.params s.rx i)) (s.seq + 1)
  change actsAfter ((plan s.params s.rx i).take (s.seq + 1)) = some c at hc
  have hstep : actStep (some s.cs) (plan s.params s.rx i)[s.seq] = some c := by
    rw [← hacts, ← actsAfter_append_singleton, ← hlast, hc]
  have hmem := advance_memOk (plan s.params s.rx i)[s.seq] h.memOk
  rw [tick_of_event (List.getElem?_eq_getElem hseq)]
  obtain ⟨cs, bs, mock, answers, fresh, e, hadv, hbs, hlegal, hcs⟩ := advance_spec (plan s.params s.rx i)[s.seq] s
  obtain rfl : cs = c := hcs c hstep
  have htrace : csAfter (s.trace ++ [e]) = some cs := by
    rw [csAfter_append_singleton, h.traceOk, hlegal, hstep]
  obtain ⟨htake, hmore⟩ := plan_of_received (List.prefix_append s.rx bs) hrx
  rw [hadv] at hmem ⊢
  split
  next hlt =>
    refine ⟨htrace, (flightOk_of_busy (by exact hcur)).2 ⟨hrej, hlt, ?_, ?_⟩, h.statusOk, h.sfOk, hmem⟩
    · exact (congrArg actsAfter htake).trans hc
    · simp only [htake, hlast, recvCount_append, List.length_append, hbs, hrx]
  next hend =>
    have hall : (plan s.params s.rx i).take (s.seq + 1) = plan s.params s.rx i :=
      List.take_of_length_le (Nat.le_of_not_lt fun hlt => hend (hmore.2 hlt))
    rw [hall] at hc
    have hdes : cs = .deselected := Option.some.inj (hc.symm.trans (actsAfter_bracketActs _))
    exact finish_inv i htrace hdes h.sfOk hmem

/-- The block's reset ends in the invariant, whatever was in flight (R240, R242). -/
theorem blockReset_inv {s : State} (htrace : s.traceOk) (hmem : s.memOk) : s.blockReset.Inv where
  traceOk := by
    change csAfter s.trace = some s.cs at htrace
    change csAfter s.blockReset.trace = some .deselected
    rw [blockReset_trace]
    cases hcs : s.cs with
    | deselected => simpa [hcs] using htrace
    | selected =>
      rw [if_pos rfl, csAfter_append_singleton, htrace, hcs]
      rfl
  flightOk := ⟨rfl, rfl, rfl⟩
  statusOk := Nat.zero_le 4
  sfOk := resetHasInvariant.sfOk
  memOk := by
    unfold State.memOk State.blockReset
    cases s.cs with
    | deselected => exact hmem
    | selected => exact deselect_memOk hmem

/-- The scratch frame is legal and the registers are canonical: the part of the invariant that every operation of the
meanings keeps by itself. -/
theorem sfOk_memOk_closed : ClosedUnderOps fun s => s.sf.ok ∧ s.memOk where
  select _ h := ⟨h.1, select_memOk h.2⟩
  deselect _ h := ⟨h.1, deselect_memOk h.2⟩
  xchg t s h := by
    obtain ⟨_, _, _, hx⟩ := xchg_spec t s
    exact ⟨by rw [hx]; exact h.1, xchg_memOk h.2⟩
  loadScratch _ _ _ h := ⟨decodeFrame_ok _ _ _, h.2⟩
  complete _ _ _ h := h

/-- Every instruction leaves the block idle, with a legal `STATUS` (R27, R29). -/
theorem exec_completes {i : Instr} {s t : State} (h : exec i s = .next t) :
    t.cur = none ∧ t.seq = 0 ∧ t.rx = [] ∧ t.statusOk := by
  obtain ⟨code, hr, rfl⟩ | ⟨-, rfl⟩ := exec_cases h
  · exact ⟨rfl, rfl, rfl, rejection_code_le hr⟩
  · refine ⟨finish_cur i _, finish_seq i _, finish_rx i _, ?_⟩
    rw [State.statusOk, finish_status]
    decide

/-- An instruction run by the idle block keeps the invariant. -/
theorem exec_inv {i : Instr} {s t : State} (hcur : s.cur = none) (h : s.Inv) (he : exec i s = .next t) : t.Inv := by
  obtain ⟨hcs, -⟩ := (flightOk_of_idle hcur).1 h.flightOk
  obtain ⟨prs, htr, -, hdes⟩ := operationsIssueWholeBrackets i s t he
  obtain ⟨hcur', hseq, hrx, hstatus⟩ := exec_completes he
  obtain ⟨hsf, hmem⟩ := sfOk_memOk_closed.exec ⟨h.sfOk, h.memOk⟩ he
  refine ⟨?_, (flightOk_of_idle hcur').2 ⟨hdes hcs, hseq, hrx⟩, hstatus, hsf, hmem⟩
  have htrace : csAfter s.trace = some .deselected := hcs ▸ h.traceOk
  rw [State.traceOk, htr, hdes hcs]
  exact csAfter_wholeBrackets htrace prs

/-- An undecodable presentation keeps the invariant: it is rejected, or the step is refused (R99, R101). -/
theorem undecoded_inv {e : DecodeError} {s t : State} (hcur : s.cur = none) (h : s.Inv)
    (he : s.undecoded e = .next t) : t.Inv := by
  obtain ⟨hcs, -⟩ := (flightOk_of_idle hcur).1 h.flightOk
  cases e with
  | reservedOp op => cases he; exact complete_inv .none h.traceOk hcs (by decide) h.sfOk h.memOk
  | emptyBracket | unknownOpcode | badLength => cases he

/-- An operation accepted by the idle block keeps the invariant: it is rejected, or it is in flight with no event
issued (R29). -/
theorem accept_inv {i : Instr} {s : State} (hcur : s.cur = none) (h : s.Inv) : (s.accept i).Inv := by
  obtain ⟨hcs, -⟩ := (flightOk_of_idle hcur).1 h.flightOk
  obtain ⟨code, hr, hacc⟩ | ⟨hr, hacc⟩ := accept_spec i s
  · exact hacc ▸ exec_inv hcur h (exec_of_rejected s hr)
  · rw [hacc]
    exact ⟨h.traceOk, ⟨hr, plan_ne_nil _ _ i, congrArg some hcs.symm, rfl⟩, h.statusOk, h.sfOk, h.memOk⟩

theorem issue_inv {w : Presented} {s t : State} (h : s.Inv) (hcur : s.cur = none) (he : s.issue w = .next t) :
    t.Inv := by
  unfold State.issue at he
  split at he
  · exact exec_inv hcur h he
  · exact undecoded_inv hcur h he

theorem start_inv {w : Presented} {s t : State} (h : s.Inv) (hcur : s.cur = none) (he : s.start w = .next t) :
    t.Inv := by
  unfold State.start at he
  split at he
  · cases he; exact accept_inv hcur h
  · exact undecoded_inv hcur h he

theorem readFrame_inv {s t : State} (h : s.Inv) (he : s.readFrame = .next t) : t.Inv := by
  unfold State.readFrame at he
  split at he
  · cases he; exact ⟨h.traceOk, h.flightOk, h.statusOk, h.sfOk, h.memOk⟩
  · cases he

theorem inv_with_mock {s : State} {m : Mock} (h : s.Inv) (hm : Memory.wf m.reg = true) : { s with mock := m }.Inv :=
  ⟨h.traceOk, h.flightOk, h.statusOk, h.sfOk, hm⟩

/-- A delivery writes MOCK's registers, and keeps them canonical (R76). -/
theorem deliver_inv (n : Fin 3) (b : Fin 2) {s : State} (h : s.Inv) : (s.deliver n b).Inv :=
  inv_with_mock h (mock_deliver_wf h.memOk)

/-- A step of the idle block keeps the invariant, whatever the host's move. -/
theorem idleStep_inv {s t : State} (hcur : s.cur = none) (h : s.Inv) (he : s.idleStep = .next t) : t.Inv := by
  unfold State.idleStep at he
  split at he
  · cases he; exact h
  next m ms hm =>
    have hms : { s with moves := ms }.Inv := inv_with_moves h ms
    cases m with
    | issue w => exact issue_inv hms hcur he
    | start w => exact start_inv hms hcur he
    | reset => cases he; exact blockReset_inv hms.traceOk hms.memOk
    | readFrame => exact readFrame_inv hms he
    | deliver n b => cases he; exact deliver_inv n b hms
    | wait => cases he; exact hms

/-- A step of the busy block keeps the invariant: it is the block's reset, or an event. -/
theorem busyStep_inv {s t : State} {i : Instr} (hcur : s.cur = some i) (h : s.Inv) (he : s.busyStep i = .next t) :
    t.Inv := by
  unfold State.busyStep at he
  split at he
  next ms _ => cases he; exact blockReset_inv (inv_with_moves h ms).traceOk h.memOk
  next ms _ => cases he; exact tick_inv (s := { s with moves := ms }) hcur (inv_with_moves h ms)
  · cases he; exact tick_inv hcur h

/-- Settles O33: the step is refused, or that of the busy or of the idle block. -/
theorem stepKeepsInvariant : Obligations.StepKeepsInvariant := by
  intro s t h he
  unfold step State.next at he
  split at he
  · cases he
  · split at he
    next i hcur => exact busyStep_inv hcur h he
    next hcur => exact idleStep_inv hcur h he

end Sys2Proof.Machine

/-! # The two granularities agree (10_state.md R29)

An operation run one event per step follows its plan; following the plan is running the brackets; so it completes where
exec does. MOCK never stops it, since a bracket that begins with a listed opcode leaves MOCK between brackets. -/

namespace Sys2Proof.Machine

open Host (Outcome)
open Sys2Proof.Config

/-! ## Following planned events -/

/-- The planned events issued one after another. -/
def State.follow (as : List Act) (s : State) : State := as.foldl (fun u a => u.advance a) s

@[simp] theorem follow_nil (s : State) : s.follow [] = s := rfl
@[simp] theorem follow_cons (a : Act) (as : List Act) (s : State) : s.follow (a :: as) = (s.advance a).follow as := rfl
@[simp] theorem follow_append (as as' : List Act) (s : State) : s.follow (as ++ as') = (s.follow as).follow as' :=
  List.foldl_append

/-- `t` is where planned events lead from `s`, counted: one event issued and one step of `SEQ` per planned event, one
byte received per read position; what an operation leaves alone stays, and so does the operation. -/
structure Followed (as : List Act) (s t : State) : Prop where
  setup : s.SameSetup t
  cur   : t.cur = s.cur
  seq   : t.seq = s.seq + as.length
  trace : t.trace.length = s.trace.length + as.length
  rx    : ∃ bs, t.rx = s.rx ++ bs ∧ bs.length = recvCount as

theorem advance_followed (a : Act) (s : State) : Followed [a] s (s.advance a) := by
  obtain ⟨_, bs, _, _, _, e, hadv, hbs, -⟩ := advance_spec a s
  rw [hadv]
  exact ⟨⟨rfl, rfl, rfl⟩, rfl, rfl, List.length_append, bs, rfl, hbs⟩

theorem Followed.trans {as as' : List Act} {s t u : State} (h : Followed as s t) (h' : Followed as' t u) :
    Followed (as ++ as') s u where
  setup := h.setup.trans h'.setup
  cur := h'.cur.trans h.cur
  seq := by rw [h'.seq, h.seq, List.length_append, Nat.add_assoc]
  trace := by rw [h'.trace, h.trace, List.length_append, Nat.add_assoc]
  rx := by
    obtain ⟨bs, hrx, hlen⟩ := h.rx
    obtain ⟨bs', hrx', hlen'⟩ := h'.rx
    exact ⟨bs ++ bs', by rw [hrx', hrx, List.append_assoc], by rw [List.length_append, hlen, hlen', recvCount_append]⟩

theorem follow_followed (as : List Act) (s : State) : Followed as s (s.follow as) := by
  induction as generalizing s with
  | nil => exact ⟨⟨rfl, rfl, rfl⟩, rfl, rfl, rfl, [], (List.append_nil _).symm, rfl⟩
  | cons a as ih => exact (advance_followed a s).trans (ih (s.advance a))

/-! ## Following the plan is running the brackets -/

/-- The block with `SEQ` and the received bytes as given. -/
def State.inFlight (s : State) (seq : Nat) (rx : List Byte) : State := { s with seq := seq, rx := rx }

/-- What is in flight makes no difference to the exchanges of a bracket. -/
theorem exchanges_inFlight (xs : List Xfer) (s : State) (n : Nat) (rx : List Byte) :
    exchanges xs (s.inFlight n rx) = ((exchanges xs s).1, (exchanges xs s).2.inFlight n rx) := by
  obtain ⟨rs, _, _, _, _, h⟩ := exchanges_spec xs s
  refine (exchanges_keeping xs s (s.inFlight n rx)).trans ?_
  rw [h]
  rfl

/-- What is in flight makes no difference to a bracket. -/
theorem bracket_inFlight (xs : List Xfer) (s : State) (n : Nat) (rx : List Byte) :
    (s.inFlight n rx).bracket xs = ((s.bracket xs).1, (s.bracket xs).2.inFlight n rx) := by
  simp only [State.bracket, show (s.inFlight n rx).select = s.select.inFlight n rx from rfl, exchanges_inFlight]
  rfl

/-- What is in flight makes no difference to the brackets of an operation. -/
theorem runBrackets_inFlight (brs : List (List Xfer)) (s : State) (n : Nat) (rx : List Byte) :
    (s.inFlight n rx).runBrackets brs = ((s.runBrackets brs).1, (s.runBrackets brs).2.inFlight n rx) := by
  induction brs generalizing s with
  | nil => rfl
  | cons xs brs ih => simp only [State.runBrackets, bracket_inFlight, ih]

/-- One planned exchange. -/
theorem advance_send (t : Byte) (s : State) :
    s.advance (.xfer (.send t)) = (s.xchg t).2.inFlight (s.seq + 1) s.rx := by
  obtain ⟨_, _, _, h⟩ := xchg_spec t s
  simp only [State.advance, State.act]
  rw [h]
  rfl

/-- One planned exchange whose answer is kept. -/
theorem advance_recv (s : State) :
    s.advance (.xfer .recv) =
      (s.xchg s.params.dummyTx).2.inFlight (s.seq + 1) (s.rx ++ [(s.xchg s.params.dummyTx).1]) := by
  obtain ⟨_, _, _, h⟩ := xchg_spec s.params.dummyTx s
  simp only [State.advance, State.act]
  rw [h]
  rfl

theorem follow_xfers (xs : List Xfer) (s : State) :
    s.follow (xs.map .xfer) = (exchanges xs s).2.inFlight (s.seq + xs.length) (s.rx ++ (exchanges xs s).1) := by
  induction xs generalizing s with
  | nil => simp [exchanges, State.inFlight]
  | cons x xs ih =>
    rw [List.map_cons, follow_cons, ih]
    cases x with
    | send t =>
      rw [advance_send, exchanges_inFlight]
      simp [State.inFlight, exchanges, Nat.add_assoc, Nat.add_comm 1]
    | recv =>
      rw [advance_recv, exchanges_inFlight]
      simp [State.inFlight, exchanges, Nat.add_assoc, Nat.add_comm 1]

theorem follow_bracketActs (xs : List Xfer) (s : State) :
    s.follow (bracketActs xs) =
      (s.bracket xs).2.inFlight (s.seq + (bracketActs xs).length) (s.rx ++ (s.bracket xs).1) := by
  have hsel : s.advance .sel = s.select.inFlight (s.seq + 1) s.rx := rfl
  have hdes (u : State) (n : Nat) (rx : List Byte) : (u.inFlight n rx).advance .des = u.deselect.inFlight (n + 1) rx :=
    rfl
  simp only [bracketActs, List.cons_append, follow_cons, follow_append, follow_nil, hsel, follow_xfers,
    exchanges_inFlight]
  have hlen : s.seq + 1 + xs.length + 1 = s.seq + (Act.sel :: (xs.map Act.xfer ++ [.des])).length := by
    simp only [List.length_cons, List.length_append, List.length_map, List.length_nil]
    omega
  rw [hdes, ← hlen]
  rfl

/-- Following the plan of brackets is running them. -/
theorem follow_brackets (brs : List (List Xfer)) (s : State) :
    s.follow (brs.map bracketActs).flatten = (s.runBrackets brs).2.inFlight
      (s.seq + (brs.map bracketActs).flatten.length) (s.rx ++ (s.runBrackets brs).1) := by
  induction brs generalizing s with
  | nil => simp [State.runBrackets, State.inFlight]
  | cons xs brs ih =>
    rw [List.map_cons, List.flatten_cons, follow_append, follow_bracketActs, ih, runBrackets_inFlight]
    simp [State.runBrackets, State.inFlight, Nat.add_assoc]

/-- The brackets an operation runs are those its sequencer plans with all the bytes received (R25). -/
theorem brackets_of_received (i : Instr) (s : State) :
    brackets s.params (s.runBrackets (s.opBrackets i)).1 i = s.opBrackets i := by
  cases i with
  | rxframe idx =>
    obtain ⟨c, hc⟩ := controlBracket_received s.params idx s
    simp only [opBrackets_rxframe, State.runBrackets, hc]
    rfl
  | _ => rfl

/-- Completion does not read `SEQ`. -/
theorem finish_inFlight (i : Instr) (s : State) (n : Nat) (rx : List Byte) :
    (s.inFlight n rx).finish i = { s with rx := rx }.finish i := by
  cases i <;> rfl

/-! ## MOCK never stops an operation (R71, R99) -/

/-- MOCK is past the first byte of a bracket it accepts. -/
def Phase.Within (ph : Phase) : Prop := ph ≠ .idle ∧ ph ≠ .opcode ∧ ph ≠ .refused

@[simp] theorem ofByte?_byte (op : WireOp) : WireOp.ofByte? op.byte = some op := by
  cases op <;> rfl

theorem mock_opcode_within (p : Params) (op : WireOp) (m : Mock) : (Mock.opcode p op m).ph.Within := by
  cases op <;> exact ⟨nofun, nofun, nofun⟩

theorem mock_xchg_within {p : Params} {t : Byte} {m : Mock} (h : m.ph.Within) : (Mock.xchg p t m).2.ph.Within := by
  unfold Mock.xchg
  split
  next hm => exact absurd hm h.2.1
  · split
    · exact ⟨nofun, nofun, nofun⟩
    · split <;> exact ⟨nofun, nofun, nofun⟩
  · exact h
  · change ((m.set m.ptr t).echoMode p m.ptr).ph.Within
    rwa [mock_echoMode_ph]
  · exact ⟨nofun, nofun, nofun⟩
  · exact ⟨nofun, nofun, nofun⟩
  · exact h
  · exact h
  next hm => exact absurd hm h.1
  · exact h

theorem mock_feed_within {p : Params} {ts : List Byte} {m : Mock} (h : m.ph.Within) :
    (Mock.feed p ts m).2.ph.Within := by
  induction ts generalizing m with
  | nil => exact h
  | cons t ts ih => exact ih (mock_xchg_within h)

/-- A bracket that begins with a listed opcode leaves MOCK between brackets. -/
theorem bracket_mock_idle {xs : List Xfer} {s : State} (henv : s.env = .mock) (hph : s.mock.ph ≠ .refused)
    (hxs : BeginsWithOpcode xs) : (s.bracket xs).2.mock.ph = .idle := by
  obtain ⟨op, rest, rfl⟩ := hxs
  have hwithin : (Mock.feed s.params (sentOf s.params.dummyTx (.send op.byte :: rest)) s.mock.sel).2.ph.Within := by
    have hsel : s.mock.sel.ph = .opcode := if_neg hph
    refine mock_feed_within (ts := sentOf _ rest) (m := (Mock.xchg s.params op.byte s.mock.sel).2) ?_
    simp only [Mock.xchg, hsel, ofByte?_byte]
    exact mock_opcode_within _ op _
  rw [bracket_mock henv]
  exact if_neg hwithin.2.2

theorem mockStopped_of_oracle {s : State} (h : s.env = .oracle) : s.mockStopped = false := by
  simp only [State.mockStopped, h]

theorem mockStopped_of_mock {s : State} (h : s.env = .mock) : s.mockStopped = decide (s.mock.ph = .refused) := by
  simp only [State.mockStopped, h]

/-- A bracket that begins with a listed opcode does not stop MOCK. -/
theorem bracket_not_stopped {xs : List Xfer} {s : State} (h : s.mockStopped = false) (hxs : BeginsWithOpcode xs) :
    (s.bracket xs).2.mockStopped = false := by
  have henv : (s.bracket xs).2.env = s.env := by
    obtain ⟨_, _, _, _, _, hb⟩ := bracket_spec xs s
    rw [hb]
  cases he : s.env with
  | oracle => exact mockStopped_of_oracle (henv.trans he)
  | mock =>
    rw [mockStopped_of_mock he, decide_eq_false_iff_not] at h
    rw [mockStopped_of_mock (henv.trans he), bracket_mock_idle he h hxs]
    rfl

theorem runBrackets_not_stopped {brs : List (List Xfer)} {s : State} (h : s.mockStopped = false)
    (hbrs : ∀ xs ∈ brs, BeginsWithOpcode xs) : (s.runBrackets brs).2.mockStopped = false := by
  induction brs generalizing s with
  | nil => exact h
  | cons xs brs ih =>
    obtain ⟨hxs, hrest⟩ := List.forall_mem_cons.1 hbrs
    exact ih (bracket_not_stopped h hxs) hrest

theorem xchg_of_mock {s : State} (h : s.env = .mock) (t : Byte) :
    (s.xchg t).2.mock = (Mock.xchg s.params t s.mock).2 ∧ (s.xchg t).2.env = .mock := by
  simp [State.xchg, State.answer, h]

/-- From a MOCK that has refused no exchange leads away (R71). -/
theorem mock_xchg_refused {p : Params} {t : Byte} {m : Mock} (h : m.ph = .refused) :
    (Mock.xchg p t m).2.ph = .refused := by
  simp only [Mock.xchg, h]

theorem xchg_stopped {s : State} (t : Byte) (h : s.mockStopped = true) : (s.xchg t).2.mockStopped = true := by
  cases he : s.env with
  | oracle => rw [mockStopped_of_oracle he] at h; cases h
  | mock =>
    obtain ⟨hmock, henv⟩ := xchg_of_mock he t
    rw [mockStopped_of_mock he, decide_eq_true_iff] at h
    rw [mockStopped_of_mock henv, hmock, mock_xchg_refused h]
    rfl

/-- From a MOCK that has refused no event leads away (R71). -/
theorem advance_stopped {s : State} (a : Act) (h : s.mockStopped = true) : (s.advance a).mockStopped = true := by
  cases a with
  | xfer x =>
    cases x with
    | send t => exact xchg_stopped t h
    | recv => exact xchg_stopped s.params.dummyTx h
  | sel | des =>
    cases he : s.env with
    | oracle => rw [mockStopped_of_oracle he] at h; cases h
    | mock =>
      rw [mockStopped_of_mock he, decide_eq_true_iff] at h
      rw [mockStopped_of_mock (by exact he), decide_eq_true_iff]
      simp [State.advance, State.act, State.select, State.deselect, he, Mock.sel, Mock.des, Phase.toward, h]

theorem not_stopped_of_follow {as : List Act} {s : State} (h : (s.follow as).mockStopped = false) :
    s.mockStopped = false := by
  induction as generalizing s with
  | nil => exact h
  | cons a as ih => exact Bool.eq_false_iff.2 fun hs => Bool.eq_false_iff.1 (ih h) (advance_stopped a hs)

/-! ## The run of an operation -/

theorem run_succ_of_step {s t : State} (n : Nat) (h : step s = .next t) :
    Sys2Proof.core.run (n + 1) s = Sys2Proof.core.run n t := by
  simp only [Host.Core.run]
  rw [show Sys2Proof.core.step s = .next t from h]

/-- `P` is the whole plan of the operation just latched, by the bytes received along it, and MOCK does not stop it. -/
structure State.Planned (s : State) (i : Instr) (P : List Act) : Prop where
  cur   : s.cur = some i
  seq   : s.seq = 0
  rx    : s.rx = []
  moves : s.moves = []
  whole : plan s.params (s.follow P).rx i = P
  mock  : (s.follow P).mockStopped = false

/-- The event after `as` in the plan is the one the sequencer finds, and another follows it exactly when the plan goes
on: the bytes received so far determine both. -/
theorem State.Planned.tick {s : State} {i : Instr} {as bs : List Act} {a : Act} (h : s.Planned i (as ++ a :: bs)) :
    (s.follow as).tick i =
      if bs = [] then (s.follow (as ++ [a])).finish i else s.follow (as ++ [a]) := by
  have hu := follow_followed as s
  have hv := advance_followed a (s.follow as)
  have hR := follow_followed (a :: bs) (s.follow as)
  rw [← follow_append] at hR
  have hparams : (s.follow as).params = s.params := hu.setup.params
  have hseq : (s.follow as).seq = as.length := by rw [hu.seq, h.seq, Nat.zero_add]
  have hlen : (s.follow as).rx.length = recvCount ((plan s.params (s.follow (as ++ a :: bs)).rx i).take as.length) := by
    obtain ⟨rs, hrs, hcount⟩ := hu.rx
    rw [h.whole, List.take_left, hrs, h.rx, List.nil_append, hcount]
  obtain ⟨htake, hmore⟩ := plan_of_received (hR.rx.imp fun _ h => h.1.symm) hlen
  obtain ⟨-, hmore'⟩ := plan_of_received (hv.rx.imp fun _ h => h.1.symm) hlen
  rw [h.whole] at htake hmore
  have hevent : (plan (s.follow as).params (s.follow as).rx i)[(s.follow as).seq]? = some a := by
    rw [hparams, hseq, ← List.getElem?_take_of_succ, ← htake, List.getElem?_take_of_succ]
    simp
  have hgoes : (s.follow as).seq + 1 < (plan (s.follow as).params ((s.follow as).advance a).rx i).length ↔ bs ≠ [] := by
    rw [hparams, hseq, hmore', ← hmore]
    cases bs <;> simp
  rw [tick_of_event hevent, follow_append]
  simp only [hgoes, ne_eq, ite_not]
  rfl

/-- A step of the operation in progress, as it follows its plan. -/
theorem State.Planned.step {s : State} {i : Instr} {as bs : List Act} {a : Act} (h : s.Planned i (as ++ a :: bs)) :
    step (s.follow as) = .next ((s.follow as).tick i) := by
  have hu := follow_followed as s
  have hmoves : (s.follow as).moves = [] := hu.setup.moves.trans h.moves
  have hmock : (s.follow as).mockStopped = false := by
    have := h.mock
    rw [follow_append] at this
    exact not_stopped_of_follow this
  rw [step_of_busy (hu.cur.trans h.cur) hmock]
  simp only [State.busyStep, hmoves]

/-- The rest of the plan runs one event per step, and the last event's step completes. -/
theorem State.Planned.run {s : State} {i : Instr} {as bs : List Act} {a : Act} (h : s.Planned i (as ++ a :: bs)) :
    Sys2Proof.core.run (bs.length + 1) (s.follow as) = .next ((s.follow (as ++ a :: bs)).finish i) := by
  induction bs generalizing as a with
  | nil => exact (run_succ_of_step _ h.step).trans (congrArg Outcome.next h.tick)
  | cons b bs ih =>
    rw [run_succ_of_step _ h.step, h.tick, if_neg (List.cons_ne_nil b bs)]
    rw [List.append_cons as a (b :: bs)] at h ⊢
    exact ih h

/-- The block with the operation just accepted and no further host move (R29). -/
def State.latched (s : State) (i : Instr) : State := { s with moves := [], cur := some i, seq := 0, rx := [] }

/-- All events of the operation, by the brackets it runs. -/
def State.events (i : Instr) (s : State) : List Act := ((s.opBrackets i).map bracketActs).flatten

theorem events_eq_plan (i : Instr) (s : State) :
    s.events i = plan s.params (s.runBrackets (s.opBrackets i)).1 i := by
  rw [plan, brackets_of_received, State.events]

/-- Following its events from acceptance, an operation arrives where its brackets lead. -/
theorem latched_follow_events (i : Instr) (s : State) :
    (s.latched i).follow ((s.latched i).events i) =
      ((s.latched i).ranBrackets i).inFlight (0 + ((s.latched i).events i).length) ((s.latched i).ranBrackets i).rx :=
  follow_brackets ((s.latched i).opBrackets i) (s.latched i)

/-- An operation accepted while MOCK has not stopped follows the whole of its plan. -/
theorem latched_planned (i : Instr) {s : State} (h : s.mockStopped = false) :
    (s.latched i).Planned i ((s.latched i).events i) where
  cur := rfl
  seq := rfl
  rx := rfl
  moves := rfl
  whole := by
    rw [latched_follow_events, events_eq_plan]
    rfl
  mock := by
    rw [latched_follow_events]
    exact runBrackets_not_stopped (s := s.latched i) h (brackets_beginWithOpcode _ _ i)

/-- Where the events lead, completion gives what exec gives. -/
theorem exec_eq_finish_follow {i : Instr} (s : State) (h : Instr.rejection i = none) :
    exec i { s with moves := [] } = .next (((s.latched i).follow ((s.latched i).events i)).finish i) := by
  rw [← exec_keeping_eq i (s := { s with moves := [] }) (b := s.latched i) rfl rfl, latched_follow_events,
    finish_inFlight]
  exact exec_of_accepted (s.latched i) h

/-- Settles O37: a rejection is one step, and an accepted operation is its start and then its events, each in a step. -/
theorem eventStepsComposeToOperation : Obligations.EventStepsComposeToOperation := by
  intro s w i hready hmoves hdec
  have hstep := (stepRunsDecodedInstruction s w i [] hready hdec).2 hmoves
  cases hr : Instr.rejection i with
  | some code =>
    rw [hr] at hstep
    refine ⟨_, exec_of_rejected _ hr, ?_⟩
    have hcount : ({ s with moves := [] }.rejectedWith code).trace.length - s.trace.length = 0 := Nat.sub_self _
    rw [hcount]
    exact run_succ_of_step 0 hstep
  | none =>
    rw [hr] at hstep
    refine ⟨_, exec_eq_finish_follow s hr, ?_⟩
    have hplanned := latched_planned i hready.2
    have hcount : (((s.latched i).follow ((s.latched i).events i)).finish i).trace.length - s.trace.length =
        ((s.latched i).events i).length := by
      rw [finish_trace, (follow_followed _ _).trace]
      exact Nat.add_sub_cancel_left _ _
    have hpos : 0 < ((s.latched i).events i).length := events_eq_plan i (s.latched i) ▸ plan_ne_nil _ _ i
    rw [hcount]
    obtain ⟨a, bs, hevents⟩ := List.exists_cons_of_length_pos hpos
    rw [hevents] at hplanned ⊢
    rw [Nat.add_comm]
    exact (run_succ_of_step _ hstep).trans (hplanned.run (as := []))

end Sys2Proof.Machine

/-! # The reference responder against the block's operations (20_memory.md R70 to R76)

A bracket at MOCK is its first byte, which sets a phase or acts on the registers at once, and then the remaining bytes
fed in that phase. The rules below say what each phase does to the registers; the statements about operations put a
first byte and a phase together. -/

namespace Sys2Proof.Machine

open Host (Outcome)
open Sys2Proof.Config

/-! ## Runs of addresses -/

@[simp] theorem addrRun_zero (a : Byte) : addrRun a 0 = [] := rfl

@[simp] theorem addrRun_succ (a : Byte) (n : Nat) : addrRun a (n + 1) = a :: addrRun (a + 1) n := by
  simp only [addrRun, List.range_succ_eq_map, List.map_cons, List.map_map]
  refine congrArg₂ _ (BitVec.add_zero a) (List.map_congr_left fun k _ => ?_)
  simp only [Function.comp_apply, Nat.succ_eq_add_one]
  bv_omega

theorem mem_addrRun {a b : Byte} {n : Nat} : b ∈ addrRun a n ↔ ∃ k < n, a + BitVec.ofNat 8 k = b := by
  simp [addrRun]

theorem addrRun_subset {n n' : Nat} (a : Byte) (h : n ≤ n') : addrRun a n ⊆ addrRun a n' :=
  List.map_subset _ (List.range_subset.2 h)

theorem mem_withEcho {p : Params} {as : List Byte} {b : Byte} :
    b ∈ withEcho p as ↔ b ∈ as ∨ b = p.map.canstat ∧ p.map.canctrl ∈ as := by
  unfold withEcho
  split <;> simp_all [or_comm]

theorem withEcho_subset (p : Params) {as as' : List Byte} (h : as ⊆ as') : withEcho p as ⊆ withEcho p as' :=
  fun _ hb => mem_withEcho.2 ((mem_withEcho.1 hb).imp (@h _) fun ⟨he, hc⟩ => ⟨he, h hc⟩)

/-! ## Bits of a byte -/

theorem one_shiftLeft_getLsbD (i k : Fin 8) : (1#8 <<< i.val).getLsbD k = decide (k = i) := by
  rw [← BitVec.twoPow_eq, BitVec.getLsbD_twoPow]
  simp [Fin.ext_iff, eq_comm]

theorem setBit_getLsbD (b : Byte) (v : Bool) (i k : Fin 8) :
    (setBit b i v).getLsbD k = if k = i then v else b.getLsbD k := by
  cases v
  · simp only [setBit, Bool.false_eq_true, if_false, BitVec.getLsbD_and, BitVec.getLsbD_not, one_shiftLeft_getLsbD,
      k.isLt, decide_true, Bool.true_and]
    split <;> simp_all
  · simp only [setBit, if_true, BitVec.getLsbD_or, one_shiftLeft_getLsbD]
    split <;> simp_all

theorem setModeField_getLsbD (b : Byte) (c : BitVec 3) (k : Fin 8) :
    (setModeField b c).getLsbD k = if 5 ≤ k.val then c.getLsbD (k - 5) else b.getLsbD k := by
  fin_cases k <;> simp [setModeField]

/-- A byte whose mode field is that of another byte. -/
theorem setModeField_field_getLsbD (b v : Byte) (k : Fin 8) :
    (setModeField b (field v 5 3)).getLsbD k = if 5 ≤ k.val then v.getLsbD k else b.getLsbD k := by
  rw [setModeField_getLsbD]
  split
  next h =>
    rw [field, BitVec.getLsbD_extractLsb', Nat.add_sub_cancel' h]
    exact (congrArg (· && _) (decide_eq_true (by omega))).trans (Bool.true_and _)
  next => rfl

theorem bitModify_getLsbD (old mask value : Byte) (k : Fin 8) :
    (bitModify old mask value).getLsbD k = if mask.getLsbD k then value.getLsbD k else old.getLsbD k := by
  simp only [bitModify, BitVec.getLsbD_or, BitVec.getLsbD_and, BitVec.getLsbD_not, k.isLt, decide_true, Bool.true_and]
  cases mask.getLsbD k <;> simp

theorem byte_eq_of_bits {b b' : Byte} (h : ∀ k : Fin 8, b.getLsbD k = b'.getLsbD k) : b = b' :=
  BitVec.eq_of_getLsbD_eq fun k hk => h ⟨k, hk⟩

/-- Copying a byte's own mode field changes nothing. -/
theorem setModeField_field_self (v : Byte) : setModeField v (field v 5 3) = v :=
  byte_eq_of_bits fun k => by rw [setModeField_field_getLsbD, ite_self]

/-- The mode field written last stands. -/
theorem setModeField_setModeField (b : Byte) (c c' : BitVec 3) :
    setModeField (setModeField b c) c' = setModeField b c' :=
  byte_eq_of_bits fun k => by
    simp only [setModeField_getLsbD]
    split <;> rfl

theorem setModeField_zero (c : BitVec 3) : setModeField 0 c = c.setWidth 8 <<< 5 := by
  simp [setModeField]

/-! ## Stores -/

theorem mock_get_congr {m m' : Mock} (h : m.reg = m'.reg) (a : Byte) : m.get a = m'.get a :=
  congrArg (Memory.read · a.toNat) h

theorem mock_get_set {m : Mock} (w : Memory.wf m.reg = true) (a v b : Byte) :
    (m.set a v).get b = if b = a then v else m.get b := by
  split
  next h => rw [h, mock_get_set_same w]
  next h => exact mock_get_set_other h

/-- A store of a byte with its mode echo (R72): what a WRITE does for each byte, and BITMOD for the merged one. -/
def Mock.store (p : Params) (a v : Byte) (m : Mock) : Mock := (m.set a v).echoMode p a

@[simp] theorem mock_store_ph (p : Params) (a v : Byte) (m : Mock) : (m.store p a v).ph = m.ph :=
  mock_echoMode_ph p a _

theorem mock_store_canctrl (p : Params) (v : Byte) (m : Mock) :
    m.store p p.map.canctrl v = (m.set p.map.canctrl v).set p.map.canstat
      (setModeField ((m.set p.map.canctrl v).get p.map.canstat)
        (field ((m.set p.map.canctrl v).get p.map.canctrl) 5 3)) :=
  if_pos rfl

theorem mock_store_of_ne {p : Params} {a : Byte} (h : a ≠ p.map.canctrl) (v : Byte) (m : Mock) :
    m.store p a v = m.set a v :=
  if_neg h

/-- A store changes its register and, by the echo, `A_CANSTAT`. -/
theorem mock_get_store_other {p : Params} {a b : Byte} (h : b ∉ withEcho p [a]) (v : Byte) (m : Mock) :
    (m.store p a v).get b = m.get b := by
  simp only [mem_withEcho, List.mem_singleton, not_or, not_and] at h
  obtain ⟨hba, hecho⟩ := h
  by_cases ha : a = p.map.canctrl
  · subst ha
    rw [mock_store_canctrl, mock_get_set_other fun hb => hecho hb rfl, mock_get_set_other hba]
  · rw [mock_store_of_ne ha, mock_get_set_other hba]

/-- A store stores its byte; the echo of a register into itself changes nothing. -/
theorem mock_get_store_same {m : Mock} (w : Memory.wf m.reg = true) (p : Params) (a v : Byte) :
    (m.store p a v).get a = v := by
  by_cases ha : a = p.map.canctrl
  · subst ha
    rw [mock_store_canctrl, mock_get_set (mock_set_wf w), mock_get_set_same w]
    split
    next he => rw [← he, mock_get_set_same w, setModeField_field_self]
    next => rfl
  · rw [mock_store_of_ne ha, mock_get_set_same w]

/-- The mode echo (R72). -/
theorem mock_get_store_echo {m : Mock} {p : Params} (w : Memory.wf m.reg = true)
    (hne : p.map.canctrl ≠ p.map.canstat) (v : Byte) :
    (m.store p p.map.canctrl v).get p.map.canstat = setModeField (m.get p.map.canstat) (field v 5 3) := by
  rw [mock_store_canctrl, mock_get_set_same (mock_set_wf w), mock_get_set_same w, mock_get_set_other hne.symm]

/-! ## Bytes fed in a phase -/

theorem feed_append (p : Params) (ts ts' : List Byte) (m : Mock) :
    (Mock.feed p (ts ++ ts') m).2 = (Mock.feed p ts' (Mock.feed p ts m).2).2 := by
  induction ts generalizing m with
  | nil => rfl
  | cons t ts ih => exact ih _

/-- In phase `RdData` the answers are the registers from the pointer upwards, and only the pointer changes (R71). -/
theorem feed_rdData {m : Mock} (h : m.ph = .rdData) (p : Params) (ts : List Byte) :
    Mock.feed p ts m =
      ((addrRun m.ptr ts.length).map m.get, { m with ptr := m.ptr + BitVec.ofNat 8 ts.length }) := by
  induction ts generalizing m with
  | nil => simp [Mock.feed]
  | cons t ts ih =>
    have hx : Mock.xchg p t m = (m.get m.ptr, { m with ptr := m.ptr + 1 }) := by simp only [Mock.xchg, h]
    have hptr : m.ptr + 1 + BitVec.ofNat 8 ts.length = m.ptr + BitVec.ofNat 8 (ts.length + 1) := by bv_omega
    simp only [Mock.feed, hx, ih (m := { m with ptr := m.ptr + 1 }) h, List.length_cons, addrRun_succ, List.map_cons,
      hptr]
    rfl

/-- In phase `Stat` every answer is the status byte, and nothing changes (R71). -/
theorem feed_stat {m : Mock} (h : m.ph = .stat) (p : Params) (ts : List Byte) :
    Mock.feed p ts m = (List.replicate ts.length (m.statusByte p), m) := by
  have hx t : Mock.xchg p t m = (m.statusByte p, m) := by simp only [Mock.xchg, h]
  induction ts with
  | nil => rfl
  | cons t ts ih => simp only [Mock.feed, hx, ih, List.length_cons, List.replicate_succ]

theorem xchg_wrData {m : Mock} (h : m.ph = .wrData) (p : Params) (t : Byte) :
    (Mock.xchg p t m).2 = { m.store p m.ptr t with ptr := m.ptr + 1 } := by
  simp only [Mock.xchg, h]
  rfl

/-- In phase `WrData` the pointer moves up past the bytes (R71). -/
theorem feed_wrData_ptr {m : Mock} (h : m.ph = .wrData) (p : Params) (ts : List Byte) :
    (Mock.feed p ts m).2.ph = .wrData ∧ (Mock.feed p ts m).2.ptr = m.ptr + BitVec.ofNat 8 ts.length := by
  induction ts generalizing m with
  | nil => exact ⟨h, (BitVec.add_zero _).symm⟩
  | cons t ts ih =>
    simp only [Mock.feed, xchg_wrData h]
    obtain ⟨hph, hptr⟩ := ih (m := { m.store p m.ptr t with ptr := m.ptr + 1 }) ((mock_store_ph ..).trans h)
    refine ⟨hph, hptr.trans ?_⟩
    simp only [List.length_cons]
    bv_omega

/-- In phase `WrData` no register changes but those from the pointer upwards and, by the echo, `A_CANSTAT` (R71,
R72). -/
theorem feed_wrData_other {m : Mock} {p : Params} {ts : List Byte} {b : Byte} (h : m.ph = .wrData)
    (hb : b ∉ withEcho p (addrRun m.ptr ts.length)) : (Mock.feed p ts m).2.get b = m.get b := by
  induction ts generalizing m with
  | nil => rfl
  | cons t ts ih =>
    rw [List.length_cons, addrRun_succ] at hb
    have hhead : b ∉ withEcho p [m.ptr] := fun hb' => hb (withEcho_subset p (by simp) hb')
    have htail : b ∉ withEcho p (addrRun (m.ptr + 1) ts.length) := fun hb' =>
      hb (withEcho_subset p (List.subset_cons_self _ _) hb')
    simp only [Mock.feed, xchg_wrData h]
    exact (ih (m := { m.store p m.ptr t with ptr := m.ptr + 1 }) ((mock_store_ph ..).trans h) htail).trans
      (mock_get_store_other hhead t m)

/-! ## Brackets at MOCK -/

/-- MOCK answers, and has not refused (R71). -/
structure State.MockAnswers (s : State) : Prop where
  env : s.env = .mock
  ph  : s.mock.ph ≠ .refused

/-- MOCK after the first byte of a bracket (R71). -/
def Mock.begun (p : Params) (op : WireOp) (m : Mock) : Mock :=
  Mock.opcode p op { m with ph := .opcode, ins := op.byte }

/-- A bracket at MOCK is its first byte, and then the rest fed in the phase that byte sets (R71). -/
theorem bracket_begun {s : State} (h : s.MockAnswers) (op : WireOp) (rest : List Xfer) :
    (s.bracket (.send op.byte :: rest)).1 =
      recvOf rest (Mock.feed s.params (sentOf s.params.dummyTx rest) (s.mock.begun s.params op)).1 ∧
    (s.bracket (.send op.byte :: rest)).2.mock =
      (Mock.feed s.params (sentOf s.params.dummyTx rest) (s.mock.begun s.params op)).2.des := by
  have hsel : s.mock.sel = { s.mock with ph := .opcode } := congrArg (fun ph => { s.mock with ph := ph }) (if_neg h.ph)
  have hfirst : Mock.xchg s.params op.byte s.mock.sel = (0, s.mock.begun s.params op) := by
    simp only [Mock.xchg, hsel, ofByte?_byte]
    rfl
  rw [bracket_mock h.env]
  simp only [sentOf, Mock.feed, hfirst, recvOf, and_self]

theorem bracket_mockAnswers {s : State} {xs : List Xfer} (h : s.MockAnswers) (hxs : BeginsWithOpcode xs) :
    (s.bracket xs).2.MockAnswers := by
  refine ⟨?_, by rw [bracket_mock_idle h.env h.ph hxs]; exact nofun⟩
  obtain ⟨_, _, _, _, _, hb⟩ := bracket_spec xs s
  rw [hb]
  exact h.env

/-- At least one bracket that begins with an opcode leaves MOCK between brackets. -/
theorem runBrackets_mock_idle {s : State} {xs : List Xfer} {brs : List (List Xfer)} (h : s.MockAnswers)
    (hbrs : ∀ ys ∈ xs :: brs, BeginsWithOpcode ys) : (s.runBrackets (xs :: brs)).2.mock.ph = .idle := by
  induction brs generalizing s xs with
  | nil => exact bracket_mock_idle h.env h.ph (hbrs xs (by simp))
  | cons ys brs ih =>
    obtain ⟨hxs, hrest⟩ := List.forall_mem_cons.1 hbrs
    exact ih (bracket_mockAnswers h hxs) hrest

@[simp] theorem finish_mock (i : Instr) (s : State) : (s.finish i).mock = s.mock := by cases i <;> rfl

theorem brackets_ne_nil (p : Params) (rx : List Byte) (i : Instr) : brackets p rx i ≠ [] := by
  cases i <;> exact nofun

/-- Settles O55: an accepted operation runs at least one bracket, and each begins with a byte MOCK accepts. -/
theorem mockRefusesNoOperation : Obligations.MockRefusesNoOperation := by
  intro i s t henv hph h
  obtain ⟨code, hr, rfl⟩ | ⟨-, rfl⟩ := exec_cases h
  · exact ⟨hph, fun hn => nomatch hr.symm.trans hn⟩
  · have hbegin : ∀ xs ∈ s.opBrackets i, BeginsWithOpcode xs := brackets_beginWithOpcode _ _ i
    have hidle : ((s.ranBrackets i).finish i).mock.ph = .idle := by
      obtain ⟨xs, brs, hb⟩ := List.exists_cons_of_ne_nil (brackets_ne_nil s.params _ i)
      have hb' : s.opBrackets i = xs :: brs := hb
      rw [finish_mock, State.ranBrackets, hb']
      exact runBrackets_mock_idle ⟨henv, hph⟩ (hb' ▸ hbegin)
    exact ⟨by rw [hidle]; exact nofun, fun _ => hidle⟩

/-! ## What each wire format does to MOCK -/

/-- WAR presents the register at the address it sends (R71). -/
theorem feed_read (p : Params) (a d : Byte) (m : Mock) :
    (Mock.feed p [a, d] (m.begun p .read)).1 = [0, m.get a] ∧
    (Mock.feed p [a, d] (m.begun p .read)).2.reg = m.reg :=
  ⟨rfl, rfl⟩

/-- MOCK after the address of a WRITE bracket (R71). -/
def Mock.writing (a : Byte) (m : Mock) : Mock := { m with ph := .wrData, ins := WireOp.write.byte, ptr := a }

theorem feed_write (p : Params) (a : Byte) (ts : List Byte) (m : Mock) :
    (Mock.feed p (a :: ts) (m.begun p .write)).2 = (Mock.feed p ts (m.writing a)).2 := rfl

/-- MOCK after the address and the mask of a BITMOD bracket (R71). -/
def Mock.modifying (a mask : Byte) (m : Mock) : Mock :=
  { m with ph := .bmVal, ins := WireOp.bitmod.byte, bma := a, bmm := mask }

/-- WAM stores the merged byte (R71, R72). -/
theorem feed_bitmod (p : Params) (a mask v : Byte) (m : Mock) :
    (Mock.feed p [a, mask, v] (m.begun p .bitmod)).2.reg =
      ((m.modifying a mask).store p a (bitModify (m.get a) mask v)).reg := rfl

theorem byte_le_two {idx : Byte} (h : idx.toNat ≤ 2) : idx = 0 ∨ idx = 1 ∨ idx = 2 := by bv_omega

theorem byte_le_one {idx : Byte} (h : idx.toNat ≤ 1) : idx = 0 ∨ idx = 1 := by bv_omega

/-- The RTS opcode of a buffer requests the transmission of that buffer (R71, R73). -/
theorem begun_rts {idx : Byte} (h : idx.toNat ≤ 2) (p : Params) (m : Mock) :
    (m.begun p (rtsOp idx)).reg = (m.requestToSend p idx).reg := by
  obtain rfl | rfl | rfl := byte_le_two h <;> rfl

/-- Where a fast-path read of a receive buffer starts (R71). -/
def readStart (p : Params) (idx : Byte) : StartPoint → Byte
  | .ident => familyAddr p.map.rxbSidh idx
  | .data => familyAddr p.map.rxbSidh idx + 5

/-- The RDRXB opcode of a buffer and a start point sets the pointer there (R71). -/
theorem begun_rdRx {idx : Byte} (h : idx.toNat ≤ 1) (pt : StartPoint) (p : Params) (m : Mock) :
    m.begun p (rdRxOp idx pt) =
      { m with ph := .rdData, ins := (rdRxOp idx pt).byte, ptr := readStart p idx pt } := by
  obtain rfl | rfl := byte_le_one h <;> cases pt <;> rfl

/-! ## Reads -/

/-- A primitive operation at MOCK, by what is fed after the first byte of its bracket. -/
theorem primitive_begun {s : State} (h : s.MockAnswers) (op : WireOp) (rest : List Xfer) (res : List Byte → Result) :
    (s.primitive (.send op.byte :: rest) res).result =
      res (recvOf rest (Mock.feed s.params (sentOf s.params.dummyTx rest) (s.mock.begun s.params op)).1) ∧
    (s.primitive (.send op.byte :: rest) res).mock.reg =
      (Mock.feed s.params (sentOf s.params.dummyTx rest) (s.mock.begun s.params op)).2.reg := by
  obtain ⟨hrecv, hmock⟩ := bracket_begun h op rest
  exact ⟨congrArg res hrecv, congrArg (·.reg) hmock⟩

/-- A bracket of bytes read presents the answers MOCK gives in the phase its opcode sets (R71). -/
theorem primitive_fmtWR {s : State} (h : s.MockAnswers) (op : WireOp) (k : Nat) (res : List Byte → Result)
    {rs : List Byte} {m : Mock} (hlen : rs.length = k)
    (hfeed : Mock.feed s.params (List.replicate k s.params.dummyTx) (s.mock.begun s.params op) = (rs, m)) :
    (s.primitive (fmtWR op k) res).result = res rs ∧ (s.primitive (fmtWR op k) res).mock.reg = m.reg := by
  obtain ⟨hres, hreg⟩ := primitive_begun h op (List.replicate k .recv) res
  rw [sentOf_replicate_recv, hfeed] at hres hreg
  rw [recvOf_replicate_recv hlen] at hres
  exact ⟨hres, hreg⟩

/-- Settles O48: the one bracket of READ is a WAR bracket. -/
theorem mockReadGivesTheRegister : Obligations.MockReadGivesTheRegister := by
  intro a s henv hph
  obtain ⟨hres, hreg⟩ := primitive_begun ⟨henv, hph⟩ .read [.send a, .recv] resByte
  obtain ⟨hansw, hkept⟩ := feed_read s.params a s.params.dummyTx s.mock
  refine ⟨s.primitive (fmtWAR a) resByte, rfl, hres.trans ?_, hreg.trans hkept⟩
  exact congrArg (fun rs => resByte (recvOf [.send a, .recv] rs)) hansw

theorem rxIndexOk_of_le {idx : Byte} (h : idx.toNat ≤ 1) : rxIndexOk idx = true := decide_eq_true h

theorem exec_rdrxb_of_ok {idx len : Byte} {pt : StartPoint} (hidx : rxIndexOk idx = true)
    (hlen : readLenOk pt len.toNat = true) (s : State) :
    exec (.rdrxb idx pt len) s = .next (s.primitive (fmtWR (rdRxOp idx pt) len.toNat) .block) := by
  simp only [exec, execRdrxb, hidx, hlen, Bool.not_true, Bool.false_eq_true, if_false, if_true]

@[simp] theorem addrRun_length (a : Byte) (n : Nat) : (addrRun a n).length = n := by simp [addrRun]

/-- An RDRXB within its limits presents the registers from its start upwards (R58, R71). -/
theorem mock_rdrxb {s : State} (h : s.MockAnswers) {idx len : Byte} {pt : StartPoint} (hidx : idx.toNat ≤ 1)
    (hlen : readLenOk pt len.toNat = true) :
    ∃ t, exec (.rdrxb idx pt len) s = .next t ∧ t.mock.reg = s.mock.reg ∧
      t.result = .block ((addrRun (readStart s.params idx pt) len.toNat).map s.mock.get) := by
  have hbegun := begun_rdRx hidx pt s.params s.mock
  have hfeed := feed_rdData (m := s.mock.begun s.params (rdRxOp idx pt)) (by rw [hbegun]) s.params
    (List.replicate len.toNat s.params.dummyTx)
  obtain ⟨hres, hreg⟩ := primitive_fmtWR h (rdRxOp idx pt) len.toNat .block (by simp) hfeed
  rw [List.length_replicate, hbegun] at hres
  exact ⟨_, exec_rdrxb_of_ok (rxIndexOk_of_le hidx) hlen s, by rw [hreg, hbegun], hres⟩

/-- A status read presents MOCK's status byte (R75). -/
theorem mock_statusRead {s : State} (h : s.MockAnswers) {op : WireOp} (hph : (s.mock.begun s.params op).ph = .stat) :
    (s.primitive (fmtWR op 1) resByte).result = .byte ((s.mock.begun s.params op).statusByte s.params) ∧
    (s.primitive (fmtWR op 1) resByte).mock.reg = (s.mock.begun s.params op).reg :=
  primitive_fmtWR h op 1 resByte rfl (feed_stat hph s.params [s.params.dummyTx])

/-- The status byte of RDSTAT holds the two receive flags at their bits (R75). -/
theorem statusByte_rdstat_getLsbD (p : Params) (m : Mock) (b : Fin 8) :
    ((m.begun p .rdstat).statusByte p).getLsbD b =
      (decide (b = p.rxIfBit0 ∨ b = p.rxIfBit1) && (m.get p.map.canintf).getLsbD b) := by
  have hbyte : (m.begun p .rdstat).statusByte p =
      setBit (setBit 0 p.rxIfBit0 ((m.get p.map.canintf).getLsbD p.rxIfBit0)) p.rxIfBit1
        ((m.get p.map.canintf).getLsbD p.rxIfBit1) := if_pos rfl
  rw [hbyte, setBit_getLsbD, setBit_getLsbD]
  by_cases h1 : b = p.rxIfBit1
  · simp [h1]
  · by_cases h0 : b = p.rxIfBit0
    · simp [h0, h0 ▸ h1]
    · simp [h0, h1]

/-- Settles O49: the two start points of RDRXB, and the two status reads. -/
theorem mockFastReadGivesTheBuffer : Obligations.MockFastReadGivesTheBuffer := by
  intro idx len s henv hph hidx
  have h : s.MockAnswers := ⟨henv, hph⟩
  refine ⟨fun h1 h13 => ?_, fun h1 h8 => ?_, ?_, ?_⟩
  · exact mock_rdrxb (pt := .ident) h hidx (decide_eq_true ⟨h1, h13⟩)
  · exact mock_rdrxb (pt := .data) h hidx (decide_eq_true ⟨h1, h8⟩)
  · obtain ⟨hres, hreg⟩ := mock_statusRead (op := .rdstat) h rfl
    exact ⟨_, _, rfl, hreg, hres, statusByte_rdstat_getLsbD s.params s.mock⟩
  · obtain ⟨hres, hreg⟩ := mock_statusRead (op := .rxstat) h rfl
    exact ⟨_, rfl, hreg, hres⟩

/-! ## BITMOD, RTS and RESET -/

/-- Settles O51: BITMOD stores the merged byte. -/
theorem mockBitModifyMergesUnderMask : Obligations.MockBitModifyMergesUnderMask := by
  intro a mask v s henv hph hwf hne
  obtain ⟨-, hreg⟩ := primitive_begun ⟨henv, hph⟩ .bitmod [.send a, .send mask, .send v] resNone
  have hget b : (s.primitive (fmtWAM a mask v) resNone).mock.get b =
      ((s.mock.modifying a mask).store s.params a (bitModify (s.mock.get a) mask v)).get b :=
    mock_get_congr (hreg.trans (feed_bitmod s.params a mask v s.mock)) b
  have hsame := mock_get_store_same (m := s.mock.modifying a mask) hwf s.params a
  refine ⟨s.primitive (fmtWAM a mask v) resNone, rfl, fun k => ?_, fun ha k => ?_⟩
  · rw [hget, hsame, bitModify_getLsbD]
  · subst ha
    rw [hget, hget, hsame, mock_get_store_echo (m := s.mock.modifying _ mask) hwf hne, setModeField_field_getLsbD]
    rfl

/-- Settles O52: the one byte of RTS requests the transmission. -/
theorem mockRequestToSendSetsTheBit : Obligations.MockRequestToSendSetsTheBit := by
  intro idx s henv hph hwf hidx
  obtain ⟨-, hreg⟩ := primitive_begun ⟨henv, hph⟩ (rtsOp idx) [] resNone
  have hget : (s.primitive (fmtW1 (rtsOp idx)) resNone).mock.get (familyAddr s.params.map.txbCtrl idx) =
      setBit (s.mock.get (familyAddr s.params.map.txbCtrl idx)) (3 : Fin 8) true :=
    (mock_get_congr (hreg.trans (begun_rts hidx s.params s.mock)) _).trans (mock_get_set_same hwf)
  refine ⟨s.primitive (fmtW1 (rtsOp idx)) resNone, if_pos (decide_eq_true hidx), fun k => ?_⟩
  rw [hget, setBit_getLsbD]
  simp only [Fin.ext_iff]
  split <;> simp_all

/-- MOCK with every register cleared (R74). -/
def Mock.cleared (m : Mock) : Mock := { m with reg := [] }

theorem mock_get_cleared_set (m : Mock) (a v b : Byte) : (m.cleared.set a v).get b = if b = a then v else 0 :=
  mock_get_set rfl a v b

/-- The controller reset (R74) stores one byte to both mode registers, be they two or one. -/
theorem mock_resetRegs_eq_stores (p : Params) (m : Mock) :
    m.resetRegs p = (m.cleared.set p.map.canstat (setModeField 0 p.modeCode.configuration)).set p.map.canctrl
      (setModeField 0 p.modeCode.configuration) := by
  refine congrArg (Mock.set _ p.map.canctrl) ?_
  change setModeField ((m.cleared.set _ (setModeField 0 p.modeCode.configuration)).get _) _ = _
  rw [mock_get_cleared_set]
  split
  · exact setModeField_setModeField 0 _ _
  · rfl

theorem mock_get_resetRegs (p : Params) (m : Mock) (a : Byte) :
    (m.resetRegs p).get a =
      if a = p.map.canstat ∨ a = p.map.canctrl then p.modeCode.configuration.setWidth 8 <<< 5 else 0 := by
  rw [mock_resetRegs_eq_stores, mock_get_set (mock_set_wf rfl), mock_get_cleared_set, setModeField_zero]
  by_cases hctrl : a = p.map.canctrl
  · rw [if_pos hctrl, if_pos (.inr hctrl)]
  · simp only [hctrl, if_false, or_false]

/-- Settles O53: RESET writes the two mode registers, from all zero. -/
theorem mockResetEntersConfiguration : Obligations.MockResetEntersConfiguration := by
  intro s henv hph
  obtain ⟨-, hreg⟩ := primitive_begun ⟨henv, hph⟩ .reset [] resNone
  exact ⟨s.primitive (fmtW1 .reset) resNone, rfl, fun a =>
    (mock_get_congr hreg a).trans (mock_get_resetRegs s.params s.mock a)⟩

/-! ## The frame of memory -/

/-- Whatever MOCK's state, the bracket changes no register but those listed. -/
def StoresOnly (p : Params) (as : List Byte) (xs : List Xfer) : Prop :=
  ∀ s : State, s.params = p → s.MockAnswers → ∀ b ∉ as, (s.bracket xs).2.mock.get b = s.mock.get b

theorem StoresOnly.mono {p : Params} {as as' : List Byte} {xs : List Xfer} (h : StoresOnly p as xs) (hsub : as ⊆ as') :
    StoresOnly p as' xs :=
  fun s hp hs b hb => h s hp hs b fun hb' => hb (hsub hb')

/-- What the bytes fed after the first one, and the first one itself, change is what the bracket changes. -/
theorem storesOnly_of_feed {p : Params} {as : List Byte} {op : WireOp} {rest : List Xfer}
    (h : ∀ m : Mock, ∀ b ∉ as, (Mock.feed p (sentOf p.dummyTx rest) (m.begun p op)).2.get b = m.get b) :
    StoresOnly p as (.send op.byte :: rest) := by
  rintro s rfl hs b hb
  rw [(bracket_begun hs op rest).2]
  exact h s.mock b hb

theorem storesOnly_fmtWAR (p : Params) (as : List Byte) (a : Byte) : StoresOnly p as (fmtWAR a) :=
  storesOnly_of_feed fun m b _ => mock_get_congr (feed_read p a p.dummyTx m).2 b

/-- An opcode after which MOCK only answers. -/
def OnlyAnswers (p : Params) (op : WireOp) : Prop :=
  ∀ m : Mock, (m.begun p op).reg = m.reg ∧ ((m.begun p op).ph = .rdData ∨ (m.begun p op).ph = .stat)

theorem onlyAnswers_rdRxOp (p : Params) (idx : Byte) (pt : StartPoint) : OnlyAnswers p (rdRxOp idx pt) := fun m => by
  unfold rdRxOp
  split <;> exact ⟨rfl, .inl rfl⟩

theorem storesOnly_fmtWR {p : Params} {op : WireOp} (h : OnlyAnswers p op) (as : List Byte) (k : Nat) :
    StoresOnly p as (fmtWR op k) :=
  storesOnly_of_feed fun m b _ => by
    obtain ⟨hreg, hph | hph⟩ := h m
    · rw [feed_rdData hph]
      exact mock_get_congr hreg b
    · rw [feed_stat hph]
      exact mock_get_congr hreg b

/-- A WAW bracket stores to the run of its address and, by the echo, to `A_CANSTAT` (R58, R72). -/
theorem storesOnly_fmtWAW (p : Params) (a : Byte) {ts : List Byte} {n : Nat} (h : ts.length ≤ n) :
    StoresOnly p (withEcho p (addrRun a n)) (fmtWAW a ts) :=
  storesOnly_of_feed fun m _ hb => by
    simp only [sentOf, sentOf_map_send, feed_write]
    exact feed_wrData_other (m := m.writing a) rfl fun hb' =>
      hb (withEcho_subset p (addrRun_subset a h) hb')

theorem storesOnly_fmtWAM (p : Params) (a mask v : Byte) : StoresOnly p (withEcho p [a]) (fmtWAM a mask v) :=
  storesOnly_of_feed fun m b hb =>
    (mock_get_congr (feed_bitmod p a mask v m) b).trans
      (mock_get_store_other hb (bitModify (m.get a) mask v) (m.modifying a mask))

theorem storesOnly_rts (p : Params) {idx : Byte} (h : txIndexOk idx = true) :
    StoresOnly p [familyAddr p.map.txbCtrl idx] (fmtW1 (rtsOp idx)) :=
  storesOnly_of_feed fun m _ hb =>
    (mock_get_congr (begun_rts (of_decide_eq_true h) p m) _).trans
      (mock_get_set_other fun e => hb (List.mem_singleton.2 e))

theorem storesOnly_all (p : Params) (xs : List Xfer) : StoresOnly p (addrRun 0 256) xs := fun _ _ _ b hb =>
  absurd (mem_addrRun.2 ⟨b.toNat, b.isLt, by simp⟩) hb

/-- Each bracket of an accepted operation stores within the operation's store set. -/
theorem brackets_storeOnly {i : Instr} (p : Params) (rx : List Byte) (h : Instr.rejection i = none) :
    ∀ xs ∈ brackets p rx i, StoresOnly p (storeSet p i) xs := by
  have one {as xs} (h : StoresOnly p as xs) : ∀ ys ∈ [xs], StoresOnly p as ys := List.forall_mem_singleton.2 h
  cases i with
  | reset | wReset => exact one (storesOnly_all p _)
  | read a | wRead a => exact one (storesOnly_fmtWAR p _ a)
  | write a len wbuf => exact one (storesOnly_fmtWAW p a (List.length_take_le _ _))
  | wWrite a bytes => exact one (storesOnly_fmtWAW p a le_rfl)
  | bitmod a mask v | wBitmod a mask v => exact one (storesOnly_fmtWAM p a mask v)
  | rdstat | rxstat | wRdstat | wRxstat => exact one (storesOnly_fmtWR (fun _ => ⟨rfl, .inr rfl⟩) _ _)
  | rdrxb idx pt => exact one (storesOnly_fmtWR (onlyAnswers_rdRxOp p idx pt) _ _)
  | wRdrxb0Id | wRdrxb0Data | wRdrxb1Id | wRdrxb1Data =>
    exact one (storesOnly_fmtWR (fun _ => ⟨rfl, .inl rfl⟩) _ _)
  | rts idx => exact one (storesOnly_rts p (check_eq_none.1 h))
  | wRts0 => exact one (storesOnly_rts p (idx := 0) rfl)
  | wRts1 => exact one (storesOnly_rts p (idx := 1) rfl)
  | wRts2 => exact one (storesOnly_rts p (idx := 2) rfl)
  | setsid | seteid => exact one (storesOnly_fmtWAW p _ le_rfl)
  | txframe idx f =>
    obtain ⟨hidx, -⟩ := checkThen_eq_none.1 h
    have hdata : (dlcByte p.remoteDlc f.isRemote f.dataLength ::
        if f.isRemote then [] else f.data.toList.take f.dataLength.toNat).length ≤
          1 + if f.isRemote then 0 else f.dataLength.toNat := by
      split
      · exact le_rfl
      · simp [Nat.add_comm 1]
    refine List.forall_mem_cons.2 ⟨?_, List.forall_mem_cons.2 ⟨?_, one ?_⟩⟩
    · exact (storesOnly_fmtWAW p _ le_rfl).mono
        (List.subset_append_of_subset_left _ (withEcho_subset p (List.subset_append_left _ _)))
    · exact (storesOnly_fmtWAW p _ hdata).mono
        (List.subset_append_of_subset_left _ (withEcho_subset p (List.subset_append_right _ _)))
    · exact (storesOnly_rts p hidx).mono (List.subset_append_right _ _)
  | rxframe idx =>
    exact List.forall_mem_cons.2 ⟨storesOnly_fmtWAR p _ _,
      one (storesOnly_fmtWR (onlyAnswers_rdRxOp p idx .ident) _ _)⟩

/-- What each bracket leaves alone, all of them leave alone. -/
theorem runBrackets_get_other {s : State} {brs : List (List Xfer)} {as : List Byte} {b : Byte} (h : s.MockAnswers)
    (hbegin : ∀ xs ∈ brs, BeginsWithOpcode xs) (hstore : ∀ xs ∈ brs, StoresOnly s.params as xs) (hb : b ∉ as) :
    (s.runBrackets brs).2.mock.get b = s.mock.get b := by
  induction brs generalizing s with
  | nil => rfl
  | cons xs brs ih =>
    obtain ⟨hxs, hrest⟩ := List.forall_mem_cons.1 hbegin
    obtain ⟨hkeep, hkeeps⟩ := List.forall_mem_cons.1 hstore
    exact (ih (bracket_mockAnswers h hxs) hrest (by rwa [bracket_params])).trans (hkeep s rfl h b hb)

/-- Settles O56: a rejected operation runs no bracket, and each bracket of an accepted one stores within the store
set. -/
theorem mockChangesOnlyStoredRegisters : Obligations.MockChangesOnlyStoredRegisters := by
  intro i s t henv hph h a ha
  obtain ⟨code, -, rfl⟩ | ⟨hr, rfl⟩ := exec_cases h
  · rfl
  · rw [finish_mock]
    exact runBrackets_get_other ⟨henv, hph⟩ (brackets_beginWithOpcode _ _ i) (brackets_storeOnly _ _ hr) (ha hr)

/-! ## A run of stores, one by one -/

/-- Which addresses of a run lie in a later run from the same start, where neither wraps onto itself. -/
theorem add_mem_addrRun_add (a : Byte) {i j n : Nat} (hj : j < 256) (hn : i + n ≤ 256) :
    a + BitVec.ofNat 8 j ∈ addrRun (a + BitVec.ofNat 8 i) n ↔ i ≤ j ∧ j < i + n := by
  rw [mem_addrRun]
  constructor
  · rintro ⟨k, hk, he⟩
    have : j = i + k := by bv_omega
    omega
  · rintro ⟨hij, hjn⟩
    exact ⟨j - i, by omega, by bv_omega⟩

theorem add_mem_addrRun (a : Byte) {j n : Nat} (hj : j < 256) (hn : n ≤ 256) :
    a + BitVec.ofNat 8 j ∈ addrRun a n ↔ j < n := by
  have h := add_mem_addrRun_add a (i := 0) hj (n := n) (by omega)
  simpa using h

/-- The end of a run is part of it. -/
theorem addrRun_add_subset (a : Byte) {i n N : Nat} (h : i + n ≤ N) :
    addrRun (a + BitVec.ofNat 8 i) n ⊆ addrRun a N := by
  intro b hb
  obtain ⟨k, hk, rfl⟩ := mem_addrRun.1 hb
  exact mem_addrRun.2 ⟨i + k, by omega, by bv_omega⟩

/-- In phase `WrData`, what one byte of a run does, between those before it and those after it. -/
theorem feed_wrData_split {m : Mock} (h : m.ph = .wrData) (p : Params) {ts : List Byte} {k : Nat} (hk : k < ts.length) :
    (Mock.feed p ts m).2 = (Mock.feed p (ts.drop (k + 1))
      { (Mock.feed p (ts.take k) m).2.store p (m.ptr + BitVec.ofNat 8 k) ts[k] with
        ptr := m.ptr + BitVec.ofNat 8 (k + 1) }).2 := by
  obtain ⟨hph, hptr⟩ := feed_wrData_ptr h p (ts.take k)
  rw [List.length_take_of_le hk.le] at hptr
  have hnext : m.ptr + BitVec.ofNat 8 k + 1 = m.ptr + BitVec.ofNat 8 (k + 1) := by bv_omega
  calc (Mock.feed p ts m).2
    _ = (Mock.feed p (ts.take k ++ ts[k] :: ts.drop (k + 1)) m).2 := by
      rw [← List.drop_eq_getElem_cons hk, List.take_append_drop]
    _ = (Mock.feed p (ts.drop (k + 1)) (Mock.xchg p ts[k] (Mock.feed p (ts.take k) m).2).2).2 := feed_append _ _ _ _
    _ = _ := by rw [xchg_wrData hph, hptr, hnext]

theorem writing_feed_wf {m : Mock} (w : Memory.wf m.reg = true) (p : Params) (a : Byte) (ts : List Byte) :
    Memory.wf (Mock.feed p ts (m.writing a)).2.reg = true :=
  mock_feed_wf (m := m.writing a) w

/-- What no byte of a WRITE after the k-th stores to is as the k-th left it. -/
theorem writing_get_after (m : Mock) (p : Params) {a b : Byte} {ts : List Byte} {k : Nat} (hk : k < ts.length)
    (hb : b ∉ withEcho p (addrRun (a + BitVec.ofNat 8 (k + 1)) (ts.length - (k + 1)))) :
    (Mock.feed p ts (m.writing a)).2.get b =
      ((Mock.feed p (ts.take k) (m.writing a)).2.store p (a + BitVec.ofNat 8 k) ts[k]).get b := by
  rw [feed_wrData_split (m := m.writing a) rfl p hk, feed_wrData_other]
  · rfl
  · exact (mock_store_ph ..).trans (feed_wrData_ptr rfl p _).1
  · rwa [List.length_drop]

/-- A byte of a WRITE is stored, and stands where no later one echoes over it. -/
theorem writing_get_at {m : Mock} (w : Memory.wf m.reg = true) (p : Params) (a : Byte) {ts : List Byte} {k : Nat}
    (hk : k < ts.length) (hlen : ts.length ≤ 256)
    (hb : a + BitVec.ofNat 8 k = p.map.canstat →
      p.map.canctrl ∉ addrRun (a + BitVec.ofNat 8 (k + 1)) (ts.length - (k + 1))) :
    (Mock.feed p ts (m.writing a)).2.get (a + BitVec.ofNat 8 k) = ts[k] := by
  rw [writing_get_after m p hk, mock_get_store_same (writing_feed_wf w p a _)]
  rw [mem_withEcho, add_mem_addrRun_add a (by omega) (by omega)]
  rintro (hin | ⟨hstat, hctrl⟩)
  · omega
  · exact hb hstat hctrl

/-- The byte stored to `A_CANCTRL` is echoed, where no later one is stored to `A_CANSTAT`. -/
theorem writing_get_echo {m : Mock} (w : Memory.wf m.reg = true) {p : Params} {a : Byte} {ts : List Byte} {j : Nat}
    (hj : j < ts.length) (hlen : ts.length ≤ 256) (hctrl : a + BitVec.ofNat 8 j = p.map.canctrl)
    (hne : p.map.canctrl ≠ p.map.canstat)
    (hb : p.map.canstat ∉ addrRun (a + BitVec.ofNat 8 (j + 1)) (ts.length - (j + 1))) :
    (Mock.feed p ts (m.writing a)).2.get p.map.canstat =
      setModeField ((Mock.feed p (ts.take j) (m.writing a)).2.get p.map.canstat) (field ts[j] 5 3) := by
  rw [writing_get_after m p hj, hctrl, mock_get_store_echo (writing_feed_wf w p a _) hne]
  rw [mem_withEcho, ← hctrl, add_mem_addrRun_add a (by omega) (by omega)]
  rintro (hin | ⟨-, hin⟩)
  · exact hb hin
  · omega

/-- The echo over a byte the same WRITE stored to `A_CANSTAT` before. -/
theorem writing_echo_over_stored {m : Mock} (w : Memory.wf m.reg = true) {p : Params} {a : Byte} {ts : List Byte}
    {j k : Nat} (hkj : k < j) (hj : j < ts.length) (hlen : ts.length ≤ 256)
    (hstat : a + BitVec.ofNat 8 k = p.map.canstat) (hctrl : a + BitVec.ofNat 8 j = p.map.canctrl)
    (hne : p.map.canctrl ≠ p.map.canstat) :
    (Mock.feed p ts (m.writing a)).2.get p.map.canstat = setModeField ts[k] (field ts[j] 5 3) := by
  rw [writing_get_echo w hj hlen hctrl hne]
  · have htake : (ts.take j).length = j := List.length_take_of_le hj.le
    rw [← hstat, writing_get_at w p a (ts := ts.take j) (k := k) (by omega) (by omega), List.getElem_take]
    rw [← hctrl, add_mem_addrRun_add a (by omega) (by omega)]
    omega
  · rw [← hstat, add_mem_addrRun_add a (by omega) (by omega)]
    omega

/-- The echo where the WRITE stores nothing to `A_CANSTAT`. -/
theorem writing_echo_over_former {m : Mock} (w : Memory.wf m.reg = true) {p : Params} {a : Byte} {ts : List Byte}
    {j : Nat} (hj : j < ts.length) (hlen : ts.length ≤ 256) (hno : p.map.canstat ∉ addrRun a ts.length)
    (hctrl : a + BitVec.ofNat 8 j = p.map.canctrl) (hne : p.map.canctrl ≠ p.map.canstat) :
    (Mock.feed p ts (m.writing a)).2.get p.map.canstat = setModeField (m.get p.map.canstat) (field ts[j] 5 3) := by
  rw [writing_get_echo w hj hlen hctrl hne fun hin => hno (addrRun_add_subset a (by omega) hin)]
  have hother : p.map.canstat ∉ withEcho p (addrRun a (ts.take j).length) := by
    rw [mem_withEcho, List.length_take_of_le hj.le, ← hctrl, add_mem_addrRun a (by omega) (by omega)]
    rintro (hin | ⟨-, hin⟩)
    · exact hno (addrRun_subset a hj.le hin)
    · omega
  exact congrArg (setModeField · _) (feed_wrData_other (m := m.writing a) rfl hother)

/-- A register that is none of the run's addresses is not in the run. -/
theorem not_mem_addrRun_of_fin {a c : Byte} {n N : Nat} (hn : n ≤ N)
    (h : ∀ j : Fin N, j.val < n → a + BitVec.ofNat 8 j ≠ c) : c ∉ addrRun a n := by
  rw [mem_addrRun]
  rintro ⟨j, hj, he⟩
  exact h ⟨j, by omega⟩ hj he

/-- A WRITE within its limits, by what is fed after its address (R122). -/
theorem mock_write {s : State} (h : s.MockAnswers) {a len : Byte} {wbuf : Vector Byte 13}
    (hlen : writeLenOk len.toNat = true) :
    ∃ t, exec (.write a len wbuf) s = .next t ∧
      ∀ b, t.mock.get b = (Mock.feed s.params (wbuf.toList.take len.toNat) (s.mock.writing a)).2.get b := by
  obtain ⟨-, hreg⟩ :=
    primitive_begun h .write (.send a :: (wbuf.toList.take len.toNat).map .send) resNone
  rw [sentOf, sentOf_map_send, feed_write] at hreg
  exact ⟨_, if_pos hlen, mock_get_congr hreg⟩

/-- Settles O50: the bytes are stored one by one, and the echo is that of the byte stored to `A_CANCTRL`. -/
theorem mockWriteStoresAscending : Obligations.MockWriteStoresAscending := by
  intro a len wbuf s henv hph hwf h1 h13
  obtain ⟨t, hexec, hget⟩ := mock_write (a := a) (wbuf := wbuf) ⟨henv, hph⟩ (decide_eq_true ⟨h1, h13⟩)
  have hts : (wbuf.toList.take len.toNat).length = len.toNat := by simp [h13]
  have hbyte (k : Fin 13) (hk : k.val < (wbuf.toList.take len.toNat).length) :
      (wbuf.toList.take len.toNat)[k.val] = wbuf[k] := by simp
  generalize wbuf.toList.take len.toNat = ts at hget hts hbyte
  rw [← hts] at h1 h13 ⊢
  have hlen : ts.length ≤ 256 := by omega
  refine ⟨t, hexec, fun k hk hcond => ?_, fun j hj hctrl hne =>
    ⟨fun k hk hstat hjk => ?_, fun k hk hstat hkj b => ?_, fun hno b => ?_⟩⟩
  · rw [hget, writing_get_at hwf _ a hk hlen fun hstat hmem => ?_, hbyte k hk]
    obtain hne | heq | hno := hcond
    · exact hne hstat
    · rw [heq, ← hstat, add_mem_addrRun_add a (by omega) (by omega)] at hmem
      omega
    · exact not_mem_addrRun_of_fin h13 hno (addrRun_add_subset a (by omega) hmem)
  · rw [hget, ← hstat, writing_get_at hwf _ a hk hlen fun _ => ?_, hbyte k hk]
    rw [← hctrl, add_mem_addrRun_add a (by omega) (by omega)]
    omega
  · rw [hget, writing_echo_over_stored hwf hkj hj hlen hstat hctrl hne, setModeField_field_getLsbD, hbyte j hj,
      hbyte k hk]
  · rw [hget, writing_echo_over_former hwf hj hlen (not_mem_addrRun_of_fin h13 hno) hctrl hne,
      setModeField_field_getLsbD, hbyte j hj]

/-! ## Delivery -/

theorem mock_get_setBlock_other {a b : Byte} {vs : List Byte} {m : Mock} (h : b ∉ addrRun a vs.length) :
    (Mock.setBlock a vs m).get b = m.get b := by
  induction vs generalizing a m with
  | nil => rfl
  | cons v vs ih =>
    rw [List.length_cons, addrRun_succ, List.mem_cons, not_or] at h
    exact (ih h.2).trans (mock_get_set_other h.1)

theorem mock_get_setBlock_at {a : Byte} {vs : List Byte} {m : Mock} (w : Memory.wf m.reg = true) {k : Nat}
    (hk : k < vs.length) (hlen : vs.length ≤ 256) :
    (Mock.setBlock a vs m).get (a + BitVec.ofNat 8 k) = vs[k] := by
  induction vs generalizing a m k with
  | nil => cases hk
  | cons v vs ih =>
    rw [List.length_cons] at hk hlen
    cases k with
    | zero =>
      have hhead : a ∉ addrRun (a + 1) vs.length := by
        have h := add_mem_addrRun_add a (i := 1) (j := 0) (n := vs.length) (by omega) (by omega)
        simpa using h
      rw [BitVec.add_zero]
      exact (mock_get_setBlock_other hhead).trans (mock_get_set_same w)
    | succ k =>
      have haddr : a + BitVec.ofNat 8 (k + 1) = a + 1 + BitVec.ofNat 8 k := by bv_omega
      rw [haddr]
      exact ih (mock_set_wf w) (by omega) (by omega)

/-- The address of a buffer's register, as a number. -/
theorem familyAddr_ofNat (f : Family) (n : Nat) :
    familyAddr f (BitVec.ofNat 8 n) = BitVec.ofNat 8 (f.base.toNat + f.stride.toNat * n) := by
  simp only [familyAddr, BitVec.ofNat_add, BitVec.ofNat_mul, BitVec.ofNat_toNat, BitVec.setWidth_eq, BitVec.mul_comm]

/-- A register outside the thirteen of receive buffer `b`, under the default map. -/
theorem not_mem_rxRun {b : Fin 2} {x : Byte} (h : ¬(0x61 + 0x10 * b.val ≤ x.toNat ∧ x.toNat ≤ 0x6D + 0x10 * b.val)) :
    x ∉ addrRun (BitVec.ofNat 8 (0x61 + 0x10 * b)) 13 := by
  rw [mem_addrRun]
  rintro ⟨k, hk, rfl⟩
  have := b.isLt
  bv_omega

/-- MOCK after the copy of the thirteen bytes, under the default map (R76). -/
def Mock.copied (n : Fin 3) (b : Fin 2) (m : Mock) : Mock :=
  Mock.setBlock (BitVec.ofNat 8 (0x61 + 0x10 * b)) (m.getBlock (BitVec.ofNat 8 (0x31 + 0x10 * n)) 13) m

theorem mock_getBlock_length (m : Mock) (a : Byte) (n : Nat) : (m.getBlock a n).length = n := by
  simp [Mock.getBlock]

/-- The copy leaves a register outside the receive buffer alone. -/
theorem mock_get_copied_other {b : Fin 2} {x : Byte} (n : Fin 3) (m : Mock)
    (h : ¬(0x61 + 0x10 * b.val ≤ x.toNat ∧ x.toNat ≤ 0x6D + 0x10 * b.val)) : (m.copied n b).get x = m.get x :=
  mock_get_setBlock_other (by rw [mock_getBlock_length]; exact not_mem_rxRun h)

/-- The copy puts each byte where it belongs. -/
theorem mock_get_copied_at {m : Mock} (w : Memory.wf m.reg = true) (n : Fin 3) (b : Fin 2) (k : Fin 13) :
    (m.copied n b).get (BitVec.ofNat 8 (0x61 + 0x10 * b + k)) = m.get (BitVec.ofNat 8 (0x31 + 0x10 * n + k)) := by
  have hk : k.val < (m.getBlock (BitVec.ofNat 8 (0x31 + 0x10 * n)) 13).length := by
    rw [mock_getBlock_length]
    exact k.isLt
  have hlen : (m.getBlock (BitVec.ofNat 8 (0x31 + 0x10 * n)) 13).length ≤ 256 := by
    rw [mock_getBlock_length]
    decide
  rw [BitVec.ofNat_add (0x61 + 0x10 * b.val), Mock.copied, mock_get_setBlock_at w hk hlen]
  simp only [Mock.getBlock, List.getElem_map, List.getElem_range, BitVec.ofNat_add]

theorem mock_copied_wf {m : Mock} (w : Memory.wf m.reg = true) (n : Fin 3) (b : Fin 2) :
    Memory.wf (m.copied n b).reg = true :=
  mock_setBlock_wf w

/-- A delivery under the default parameters is the copy and three stores (R76). -/
theorem mock_deliver_eq_stores (n : Fin 3) (b : Fin 2) (m : Mock) :
    m.deliver Params.default n b =
      let m1 := m.copied n b
      let m2 := m1.set (BitVec.ofNat 8 (0x60 + 0x10 * b)) (setBit (m1.get (BitVec.ofNat 8 (0x60 + 0x10 * b))) 3
        ((m1.get (BitVec.ofNat 8 (0x35 + 0x10 * n))).getLsbD 6))
      let m3 := m2.set 0x2C (setBit (m2.get 0x2C) b true)
      m3.set (BitVec.ofNat 8 (0x30 + 0x10 * n)) (setBit (m3.get (BitVec.ofNat 8 (0x30 + 0x10 * n))) 3 false) := by
  have hflag : (if b = 0 then Params.default.rxIfBit0 else Params.default.rxIfBit1).val = b.val := by
    fin_cases b <;> rfl
  simp only [Mock.deliver, familyAddr_ofNat, hflag]
  rfl

/-- Each of the three stores is made from the register as it was before the delivery: none of these registers is among
those stored to earlier. -/
theorem mock_deliver_default (n : Fin 3) (b : Fin 2) (m : Mock) :
    m.deliver Params.default n b =
      (((m.copied n b).set (BitVec.ofNat 8 (0x60 + 0x10 * b))
          (setBit (m.get (BitVec.ofNat 8 (0x60 + 0x10 * b))) 3
            ((m.get (BitVec.ofNat 8 (0x35 + 0x10 * n))).getLsbD 6))).set 0x2C
        (setBit (m.get 0x2C) b true)).set (BitVec.ofNat 8 (0x30 + 0x10 * n))
          (setBit (m.get (BitVec.ofNat 8 (0x30 + 0x10 * n))) 3 false) := by
  have hn := n.isLt
  have hb := b.isLt
  have hctrl : (m.copied n b).get (BitVec.ofNat 8 (0x60 + 0x10 * b)) = m.get (BitVec.ofNat 8 (0x60 + 0x10 * b)) :=
    mock_get_copied_other n m (by bv_omega)
  have hdlc : (m.copied n b).get (BitVec.ofNat 8 (0x35 + 0x10 * n)) = m.get (BitVec.ofNat 8 (0x35 + 0x10 * n)) :=
    mock_get_copied_other n m (by bv_omega)
  have hintf v : ((m.copied n b).set (BitVec.ofNat 8 (0x60 + 0x10 * b)) v).get 0x2C = m.get 0x2C := by
    rw [mock_get_set_other (by bv_omega), mock_get_copied_other n m (by bv_omega)]
  have hreq v v' : (((m.copied n b).set (BitVec.ofNat 8 (0x60 + 0x10 * b)) v).set 0x2C v').get
      (BitVec.ofNat 8 (0x30 + 0x10 * n)) = m.get (BitVec.ofNat 8 (0x30 + 0x10 * n)) := by
    rw [mock_get_set_other (by bv_omega), mock_get_set_other (by bv_omega), mock_get_copied_other n m (by bv_omega)]
  simp only [mock_deliver_eq_stores, hctrl, hdlc, hintf, hreq]

/-- Settles O54: each register is looked up among the stores. -/
theorem mockDeliveryCopiesTheFrame : Obligations.MockDeliveryCopiesTheFrame := by
  intro n b m w
  have hn := n.isLt
  have hb := b.isLt
  have wc := mock_copied_wf w n b
  rw [mock_deliver_default]
  refine ⟨fun k => ?_, ?_, ?_, ?_, fun a h2C hreq hrx => ?_⟩
  · have hk := k.isLt
    rw [mock_get_set_other (by bv_omega), mock_get_set_other (by bv_omega), mock_get_set_other (by bv_omega),
      mock_get_copied_at w]
  · rw [mock_get_set_other (by bv_omega), mock_get_set_other (by bv_omega), mock_get_set_same wc]
  · rw [mock_get_set_other (by bv_omega), mock_get_set_same (mock_set_wf wc)]
  · rw [mock_get_set_same (mock_set_wf (mock_set_wf wc))]
  · rw [mock_get_set_other (by bv_omega), mock_get_set_other h2C, mock_get_set_other (by bv_omega),
      mock_get_copied_other n m (by omega)]

end Sys2Proof.Machine

/-! # The two encodings (30_encoding.md)

A bracket decodes by its first byte, which is the byte of an opcode or refused, and by what that opcode's format admits
after it. `decodeRest_spec` says once what a bracket that decodes comes to: a well-formed instruction, whose own
encoding has the same first byte and length. -/

namespace Sys2Proof.Machine

open Host (Outcome)
open Sys2Proof.Config

/-! ## The first byte of a bracket (R82, R98, R99) -/

/-- Settles O4: the table of R82, evaluated. -/
theorem wireOpcodeBytesAreThoseListed : Obligations.WireOpcodeBytesAreThoseListed := rfl

theorem wireOp_byte_listed (op : WireOp) : op.byte ∈ WireOp.all.map WireOp.byte :=
  List.mem_map_of_mem (by cases op <;> decide)

theorem byte_of_ofByte? {b : Byte} {op : WireOp} (h : WireOp.ofByte? b = some op) : op.byte = b := by
  simpa using List.find?_some h

theorem ofByte?_unlisted {b : Byte} (h : b ∉ WireOp.all.map WireOp.byte) : WireOp.ofByte? b = none := by
  cases hop : WireOp.ofByte? b with
  | none => rfl
  | some op => exact absurd (byte_of_ofByte? hop ▸ wireOp_byte_listed op) h

@[simp] theorem decodeWire_byte (op : WireOp) (rest : List Byte) :
    decodeWire (op.byte :: rest) = decodeRest op rest := by
  simp only [decodeWire, ofByte?_byte]

theorem decodeWire_unlisted {b : Byte} (rest : List Byte) (h : b ∉ WireOp.all.map WireOp.byte) :
    decodeWire (b :: rest) = .error (.unknownOpcode b) := by
  simp only [decodeWire, ofByte?_unlisted h]

/-- A bracket that decodes begins with the byte of an opcode, and the rest decodes by that opcode's format. -/
theorem decodeWire_eq_ok {bytes : List Byte} {i : Instr} (h : decodeWire bytes = .ok i) :
    ∃ op rest, bytes = op.byte :: rest ∧ decodeRest op rest = .ok i := by
  unfold decodeWire at h
  split at h
  · cases h
  · split at h
    · cases h
    next op hop => exact ⟨op, _, by rw [byte_of_ofByte? hop], h⟩

/-- Settles O5: no opcode has that byte, so the decoder refuses the bracket, and the step with it. -/
theorem unlistedFirstByteIsRefused : Obligations.UnlistedFirstByteIsRefused := by
  intro b rest s ms hb hready hm
  have hdec : decodeWire (b :: rest) = .error (.unknownOpcode b) := decodeWire_unlisted rest hb
  refine ⟨hdec, ?_⟩
  simp only [step_of_ready hready, State.idleStep, hm, State.issue, decode, hdec]
  rfl

/-- Settles O45: the indices are finitely many. -/
theorem indexedOpcodesAreThoseListed : Obligations.IndexedOpcodesAreThoseListed :=
  ⟨rfl, rfl, rfl, rfl, rfl, rfl, rfl, by decide, by decide⟩

/-! ## The operation of the command port (R81, R101) -/

/-- `OP` 0xC..0xF is reserved, whatever the operands (R101). -/
theorem decodeCommand_reserved {p : Port} (h : 0xC ≤ p.op.toNat) : decodeCommand p = .error (.reservedOp p.op) := by
  obtain ⟨k, hk⟩ := Nat.exists_eq_add_of_le' h
  simp only [decodeCommand, hk]

/-- Settles O6: the decoder refuses either presentation as reserved, and that is rejected with `ERR_OP`. -/
theorem reservedOperationIsRejected : Obligations.ReservedOperationIsRejected := by
  intro p s ms hop hready
  refine ⟨fun hm => ?_, fun hm => ?_⟩
  · simp only [step_of_ready hready, State.idleStep, hm, State.issue, decode, decodeCommand_reserved hop]
    rfl
  · simp only [step_of_ready hready, State.idleStep, hm, State.start, decode, decodeCommand_reserved hop]
    rfl

/-- Every operand of a command fits its field, so what the command port decodes to is well-formed (R103). -/
theorem decodeCommand_wf {p : Port} {i : Instr} (h : decodeCommand p = .ok i) : i.wf = true := by
  unfold decodeCommand at h
  split at h <;> cases h <;> rfl

/-! ## The formats of a bracket (R83) -/

/-- A decoder with one condition succeeds exactly where it is met. -/
theorem guarded_eq_ok {c : Prop} [Decidable c] {e : DecodeError} {j i : Instr} :
    (if c then Except.ok j else Except.error e) = .ok i ↔ c ∧ j = i := by
  split <;> simp_all

/-- The encoding of the instruction is a bracket: the byte of the opcode, then `n` bytes. -/
def EncodesAs (op : WireOp) (n : Nat) (i : Instr) : Prop :=
  ∀ dummy, ∃ rest, encode dummy i = .wire (op.byte :: rest) ∧ rest.length = n

/-- What an opcode's format admits is well-formed, and is encoded in that format at the same length. -/
theorem decodeRest_spec {op : WireOp} {rest : List Byte} {i : Instr} (h : decodeRest op rest = .ok i) :
    i.wf = true ∧ EncodesAs op rest.length i := by
  cases op with
  | reset | rts0 | rts1 | rts2 =>
    obtain ⟨hnil, rfl⟩ := guarded_eq_ok.1 h
    exact ⟨rfl, fun _ => ⟨[], rfl, by simp [List.isEmpty_iff.1 hnil]⟩⟩
  | read =>
    match rest, h with
    | [a, _], h => cases h; exact ⟨rfl, fun d => ⟨[a, d], rfl, rfl⟩⟩
  | write =>
    match rest, h with
    | a :: bytes, h =>
      obtain ⟨hlen, rfl⟩ := guarded_eq_ok.1 h
      exact ⟨decide_eq_true hlen, fun _ => ⟨a :: bytes, rfl, rfl⟩⟩
  | bitmod =>
    match rest, h with
    | [a, m, v], h => cases h; exact ⟨rfl, fun _ => ⟨[a, m, v], rfl, rfl⟩⟩
  | rdstat | rxstat =>
    obtain ⟨⟨hpos, hone⟩, rfl⟩ := guarded_eq_ok.1 h
    exact ⟨rfl, fun d => ⟨[d], rfl, le_antisymm hpos hone⟩⟩
  | rdrxb0Id | rdrxb0Data | rdrxb1Id | rdrxb1Data =>
    obtain ⟨hlen, rfl⟩ := guarded_eq_ok.1 h
    exact ⟨decide_eq_true hlen, fun d => ⟨List.replicate rest.length d, rfl, List.length_replicate⟩⟩

/-- Settles O3: the command port holds well-formed instructions alone, and so does each format of a bracket. -/
theorem decodedInstructionIsWellFormed : Obligations.DecodedInstructionIsWellFormed := by
  intro w i h
  cases w with
  | command p => exact decodeCommand_wf h
  | wire bytes =>
    obtain ⟨op, rest, -, hrest⟩ := decodeWire_eq_ok h
    exact (decodeRest_spec hrest).1

/-- As many bytes sent while reading as the format admits are counted, whatever they are (R83, R88). -/
theorem decodeReads_replicate {op : WireOp} {max k : Nat} {mk : Nat → Instr} (dummy : Byte)
    (h : 1 ≤ k ∧ k ≤ max) :
    decodeReads op max mk (List.replicate k dummy) = .ok (mk k) := by
  simp only [decodeReads, List.length_replicate, if_pos h]

/-- Settles O1: where the bracket's length depends on an operand, the operand is one the format admits; everywhere else
the two evaluate. -/
theorem decodeOfEncodeIsIdentity : Obligations.DecodeOfEncodeIsIdentity := by
  intro dummy i hwf
  cases i with
  | wWrite a bytes => exact if_pos (of_decide_eq_true hwf)
  | wRdrxb0Id | wRdrxb0Data | wRdrxb1Id | wRdrxb1Data => exact decodeReads_replicate dummy (of_decide_eq_true hwf)
  | _ => rfl

/-- Settles O2: the instruction is encoded in the format it was decoded from, and that decodes to it by the round
trip. -/
theorem encodeOfDecodedBracketAgrees : Obligations.EncodeOfDecodedBracketAgrees := by
  intro dummy bytes i h
  obtain ⟨op, rest, rfl, hrest⟩ := decodeWire_eq_ok h
  obtain ⟨hwf, hencodes⟩ := decodeRest_spec hrest
  obtain ⟨rest', henc, hlen⟩ := hencodes dummy
  have hdec : decode (encode dummy i) = .ok i := decodeOfEncodeIsIdentity dummy i hwf
  rw [henc] at hdec
  exact ⟨op.byte :: rest', henc, by simp [hlen], rfl, hdec⟩

/-- Settles O7: each word is run through its decoder. -/
theorem listedWordsDecode : Obligations.ListedWordsDecode :=
  ⟨rfl, rfl, rfl, rfl, rfl, rfl, rfl, rfl, rfl⟩

/-! ## Unpacking as the source writes it (R96) -/

/-- A bit field of a byte, at 29 bits, is a shift and a mask (R10). -/
theorem field_setWidth (b : Byte) (lo : Nat) {w : Nat} (hw : w ≤ 8) :
    (field b lo w).setWidth 29 = (b.setWidth 29 >>> lo) &&& BitVec.ofNat 29 (2 ^ w - 1) := by
  have hb := b.isLt
  have hmask : 2 ^ w ≤ 2 ^ 8 := Nat.pow_le_pow_right (by decide) hw
  have hfield : (b.toNat >>> lo) % 2 ^ w < 2 ^ w := Nat.mod_lt _ (Nat.two_pow_pos w)
  apply BitVec.eq_of_toNat_eq
  rw [field, BitVec.toNat_setWidth, BitVec.extractLsb'_toNat, BitVec.toNat_and, BitVec.toNat_ushiftRight,
    BitVec.toNat_setWidth, BitVec.toNat_ofNat, Nat.mod_eq_of_lt (by omega), Nat.mod_eq_of_lt (a := b.toNat) (by omega),
    Nat.mod_eq_of_lt (a := 2 ^ w - 1) (by omega), Nat.and_two_pow_sub_one_eq_mod]

/-- A byte shifted to the top of an 11-bit field loses no bit, so it may be widened first. -/
theorem setWidth_shiftLeft_three (b : Byte) : (b.setWidth 11 <<< 3).setWidth 29 = b.setWidth 29 <<< 3 := by
  have hb := b.isLt
  apply BitVec.eq_of_toNat_eq
  simp only [BitVec.toNat_setWidth, BitVec.toNat_shiftLeft, Nat.shiftLeft_eq]
  omega

theorem stdField_setWidth (b : IdBlock) :
    (stdField b).setWidth 29 = (b.id0.setWidth 29 <<< 3) ||| ((b.id1.setWidth 29 >>> 5) &&& 0x7) := by
  have hid1 : (field b.id1 5 3).setWidth 29 = (b.id1.setWidth 29 >>> 5) &&& 0x7 := field_setWidth b.id1 5 (by decide)
  rw [stdField, BitVec.setWidth_or, setWidth_shiftLeft_three, BitVec.setWidth_setWidth (by decide), hid1]

/-- Settles O43: the 11-bit field and the two low bits of ID1 are the source's shifts and masks. -/
theorem unpackingIsTheSourceFormula : Obligations.UnpackingIsTheSourceFormula := by
  intro b
  have hlow : (field b.id1 0 2).setWidth 29 = b.id1.setWidth 29 &&& 0x3 := field_setWidth b.id1 0 (by decide)
  rw [unpackId, stdField_setWidth, hlow]

/-! ## Reading the brackets back from a trace (R13, R14) -/

/-- Up to its `DES` a bracket sends its own bytes, and no bracket begins within it. -/
theorem sentSplit_exchanges {sent answers : List Byte} (h : sent.length = answers.length) (ev : List Event) :
    sentSplit (List.zipWith .x sent answers ++ .des :: ev) = (sent, (sentSplit ev).2) := by
  induction sent generalizing answers with
  | nil => rfl
  | cons t ts ih =>
    obtain ⟨r, rs, rfl⟩ := List.exists_cons_of_length_eq_add_one h.symm
    simp [sentSplit, ih (Nat.succ.inj h)]

theorem sentBrackets_bracketEvents {sent answers : List Byte} (h : sent.length = answers.length) (ev : List Event) :
    sentBrackets (bracketEvents sent answers ++ ev) = sent :: sentBrackets ev := by
  simp [bracketEvents, sentBrackets, sentSplit, sentSplit_exchanges h]

theorem answersOf_exchanges {sent answers : List Byte} (h : sent.length = answers.length) :
    answersOf (List.zipWith .x sent answers) = answers := by
  induction sent generalizing answers with
  | nil => exact (List.eq_nil_of_length_eq_zero h.symm).symm
  | cons t ts ih =>
    obtain ⟨r, rs, rfl⟩ := List.exists_cons_of_length_eq_add_one h.symm
    simp [answersOf, ih (Nat.succ.inj h)]

theorem answersOf_bracketEvents {sent answers : List Byte} (h : sent.length = answers.length) :
    answersOf (bracketEvents sent answers) = answers := by
  simp [bracketEvents, answersOf, answersOf_exchanges h]

theorem wholeBrackets_cons (b : List Byte × List Byte) (prs : List (List Byte × List Byte)) :
    wholeBrackets (b :: prs) = bracketEvents b.1 b.2 ++ wholeBrackets prs := rfl

/-- The brackets of a trace of whole brackets are the bytes sent in each. -/
theorem sentBrackets_wholeBrackets {prs : List (List Byte × List Byte)} (h : ∀ b ∈ prs, b.1.length = b.2.length) :
    sentBrackets (wholeBrackets prs) = prs.map (·.1) := by
  induction prs with
  | nil => rfl
  | cons b prs ih =>
    obtain ⟨hb, hprs⟩ := List.forall_mem_cons.1 h
    rw [wholeBrackets_cons, sentBrackets_bracketEvents hb, ih hprs, List.map_cons]

/-- Each byte sent in whole brackets has its answer. -/
theorem answersOf_wholeBrackets_length {prs : List (List Byte × List Byte)}
    (h : ∀ b ∈ prs, b.1.length = b.2.length) :
    (answersOf (wholeBrackets prs)).length = ((prs.map (·.1)).map List.length).sum := by
  induction prs with
  | nil => rfl
  | cons b prs ih =>
    obtain ⟨hb, hprs⟩ := List.forall_mem_cons.1 h
    rw [wholeBrackets_cons, answersOf_append, answersOf_bracketEvents hb, List.length_append, ih hprs, ← hb]
    rfl

/-- Brackets run one after another are read back from the trace as the bytes they send, with one answer per
exchange. -/
theorem runBrackets_readBack (brs : List (List Xfer)) (s : State) :
    ∃ ev, (s.runBrackets brs).2.trace = s.trace ++ ev ∧ sentBrackets ev = brs.map (sentOf s.params.dummyTx) ∧
      traceCounts ev = (brs.length, (brs.map List.length).sum) := by
  obtain ⟨prs, htr, hsent, hlen, -⟩ := runBrackets_spec brs s
  have hbrs : sentBrackets (wholeBrackets prs) = brs.map (sentOf s.params.dummyTx) :=
    (sentBrackets_wholeBrackets hlen).trans hsent
  have hlengths : (brs.map (sentOf s.params.dummyTx)).map List.length = brs.map List.length := by simp
  refine ⟨wholeBrackets prs, htr, hbrs, ?_⟩
  rw [traceCounts, hbrs, answersOf_wholeBrackets_length hlen, hsent, hlengths, List.length_map]

/-- Settles O31: a first byte is the first byte of a bracket the operation issues, which is that of an opcode. -/
theorem onlyListedFirstBytesAreSent : Obligations.OnlyListedFirstBytesAreSent := by
  intro i s t h
  obtain ⟨code, -, rfl⟩ | ⟨-, rfl⟩ := exec_cases h
  · exact ⟨[], by simp [State.rejectedWith], List.forall_mem_nil _⟩
  · obtain ⟨ev, htr, hsent, -⟩ := runBrackets_readBack (s.opBrackets i) s
    refine ⟨ev, (finish_trace i _).trans htr, fun b hb => ?_⟩
    obtain ⟨sent, hmem, hhead⟩ := List.mem_filterMap.1 hb
    rw [hsent] at hmem
    obtain ⟨xs, hxs, rfl⟩ := List.mem_map.1 hmem
    obtain ⟨op, rest, rfl⟩ := brackets_beginWithOpcode _ _ _ xs hxs
    cases hhead
    exact wireOp_byte_listed op

/-! ## Brackets and exchanges per operation (R89) -/

@[simp] theorem fmtW1_length (op : WireOp) : (fmtW1 op).length = 1 := rfl
@[simp] theorem fmtWR_length (op : WireOp) (k : Nat) : (fmtWR op k).length = 1 + k := by simp [fmtWR, Nat.add_comm]
@[simp] theorem fmtWAR_length (addr : Byte) : (fmtWAR addr).length = 3 := rfl
@[simp] theorem fmtWAM_length (addr mask val : Byte) : (fmtWAM addr mask val).length = 4 := rfl
@[simp] theorem fmtWAW_length (addr : Byte) (bytes : List Byte) : (fmtWAW addr bytes).length = 2 + bytes.length := by
  rw [fmtWAW, List.length_cons, List.length_cons, List.length_map]
  omega
@[simp] theorem idBracket_length (p : Params) (idx : Byte) (b : IdBlock) : (idBracket p idx b).length = 6 := rfl
@[simp] theorem controlBracket_length (p : Params) (idx : Byte) : (controlBracket p idx).length = 3 := rfl
@[simp] theorem frameBracket_length (idx : Byte) (rem : Bool) :
    (frameBracket idx rem).length = if rem then 5 else 14 := by
  cases rem <;> rfl

theorem dataBracket_length (p : Params) (idx : Byte) {f : CanFrame} (h : f.dataLength.toNat ≤ 8) :
    (dataBracket p idx f).length = if f.isRemote then 3 else 3 + f.dataLength.toNat := by
  have hdata : (f.data.toList.take f.dataLength.toNat).length = f.dataLength.toNat := by simp [h]
  rw [dataBracket, fmtWAW_length, List.length_cons]
  cases f.isRemote with
  | true => rfl
  | false => simp only [Bool.false_eq_true, if_false, hdata]; omega

/-- The brackets of an accepted operation and their exchanges are as many as R89 lists. -/
theorem brackets_counts {i : Instr} (p : Params) (rx : List Byte) (h : Instr.rejection i = none) :
    ((brackets p rx i).length, ((brackets p rx i).map List.length).sum) = expectedCounts (remoteFlag p rx) i := by
  cases i with
  | write addr len wbuf =>
    have hlen : 1 ≤ len.toNat ∧ len.toNat ≤ 13 := of_decide_eq_true (check_eq_none.1 h)
    simp [brackets, expectedCounts, hlen.2]
  | txframe idx f =>
    obtain ⟨-, hrest⟩ := checkThen_eq_none.1 h
    obtain ⟨hok, -⟩ := checkThen_eq_none.1 hrest
    have hlen : f.dataLength.toNat ≤ 8 := of_decide_eq_true hok
    simp only [brackets, expectedCounts, List.map_cons, List.map_nil, List.sum_cons, List.sum_nil, List.length_cons,
      List.length_nil, idBracket_length, dataBracket_length p idx hlen, fmtW1_length]
    split
    · rfl
    · exact congrArg _ (by omega)
  | rxframe idx => cases hrem : remoteFlag p rx <;> simp [brackets, expectedCounts, hrem]
  | _ => simp [brackets, expectedCounts]

@[simp] theorem runBrackets_params (brs : List (List Xfer)) (s : State) : (s.runBrackets brs).2.params = s.params := by
  induction brs generalizing s with
  | nil => rfl
  | cons xs brs ih => rw [State.runBrackets, ih, bracket_params]

/-- The remote flag R89 asks for is the one RXFRAME received; no other count asks for it. -/
theorem expectedCounts_finish (i : Instr) (s : State) :
    expectedCounts (s.finish i).sf.isRemote i = expectedCounts (remoteFlag s.params s.rx) i := by
  cases i <;> rfl

/-- Settles O29: the trace of an accepted operation is read back as its brackets, which R89 counts. -/
theorem exchangeCountsAreThoseListed : Obligations.ExchangeCountsAreThoseListed := by
  intro i s t h
  obtain ⟨code, hr, rfl⟩ | ⟨hr, rfl⟩ := exec_cases h
  · exact ⟨[], by simp [State.rejectedWith], by rw [hr]; rfl⟩
  · obtain ⟨ev, htr, -, hcounts⟩ := runBrackets_readBack (s.opBrackets i) s
    refine ⟨ev, (finish_trace i _).trans htr, ?_⟩
    have hlisted := brackets_counts s.params (s.ranBrackets i).rx hr
    have hparams : (s.ranBrackets i).params = s.params := runBrackets_params _ s
    have hissued : brackets s.params (s.ranBrackets i).rx i = s.opBrackets i := brackets_of_received i s
    rw [hissued] at hlisted
    rw [if_pos hr, hcounts, hlisted, expectedCounts_finish, hparams]

end Sys2Proof.Machine

/-! # The Register Protocol Engine's operations (40_register_protocol.md)

Each operation is one bracket in a wire format of R83, by `primitive_spec`. What a primitive operation in a format sends
and presents is said once per format; an instruction of either level is then looked up as the format it runs. -/

namespace Sys2Proof.Machine

/-! ## What a primitive operation sends and presents, by wire format (R83, R128) -/

theorem primitive_fmtW1_ran (op : WireOp) (s : State) :
    ∃ r, s.Ran (bracketEvents [op.byte] [r]) .none (s.primitive (fmtW1 op) resNone) := by
  obtain ⟨rs, hlen, hran⟩ := primitive_spec (fmtW1 op) resNone s
  match rs, hlen with
  | [r], _ => exact ⟨r, hran⟩

theorem primitive_fmtWAR_ran (a : Byte) (s : State) :
    ∃ r0 r1 v, s.Ran (bracketEvents [0x03, a, s.params.dummyTx] [r0, r1, v]) (.byte v)
      (s.primitive (fmtWAR a) resByte) := by
  obtain ⟨rs, hlen, hran⟩ := primitive_spec (fmtWAR a) resByte s
  match rs, hlen with
  | [r0, r1, v], _ => exact ⟨r0, r1, v, hran⟩

theorem primitive_fmtWAM_ran (a m v : Byte) (s : State) :
    ∃ r0 r1 r2 r3, s.Ran (bracketEvents [0x05, a, m, v] [r0, r1, r2, r3]) .none
      (s.primitive (fmtWAM a m v) resNone) := by
  obtain ⟨rs, hlen, hran⟩ := primitive_spec (fmtWAM a m v) resNone s
  match rs, hlen with
  | [r0, r1, r2, r3], _ => exact ⟨r0, r1, r2, r3, hran⟩

theorem primitive_fmtWAW_ran (a : Byte) (bytes : List Byte) (s : State) :
    ∃ rs, rs.length = 2 + bytes.length ∧
      s.Ran (bracketEvents (0x02 :: a :: bytes) rs) .none (s.primitive (fmtWAW a bytes) resNone) := by
  obtain ⟨rs, hlen, hran⟩ := primitive_spec (fmtWAW a bytes) resNone s
  have hsent : sentOf s.params.dummyTx (fmtWAW a bytes) = 0x02 :: a :: bytes :=
    congrArg (fun ts => 0x02 :: a :: ts) (sentOf_map_send s.params.dummyTx bytes)
  exact ⟨rs, hlen.trans (fmtWAW_length a bytes), hsent ▸ hran⟩

/-- The answer to the opcode is discarded; the result is made of the others, in order (R88). -/
theorem primitive_fmtWR_ran (op : WireOp) (k : Nat) (res : List Byte → Result) (s : State) :
    ∃ r rs, rs.length = k ∧
      s.Ran (bracketEvents (op.byte :: List.replicate k s.params.dummyTx) (r :: rs)) (res rs)
        (s.primitive (fmtWR op k) res) := by
  obtain ⟨answers, hlen, hran⟩ := primitive_spec (fmtWR op k) res s
  obtain ⟨r, rs, rfl⟩ := List.exists_cons_of_length_eq_add_one hlen
  have hk : rs.length = k := (Nat.succ.inj hlen).trans List.length_replicate
  have hsent : sentOf s.params.dummyTx (fmtWR op k) = op.byte :: List.replicate k s.params.dummyTx :=
    congrArg (List.cons op.byte) (sentOf_replicate_recv s.params.dummyTx k)
  have hrecv : recvOf (fmtWR op k) (r :: rs) = rs := recvOf_replicate_recv hk
  rw [hsent, hrecv] at hran
  exact ⟨r, rs, hk, hran⟩

/-- A status read presents the one byte it reads (R124, R125). -/
theorem primitive_statusRead_ran (op : WireOp) (s : State) :
    ∃ r v, s.Ran (bracketEvents [op.byte, s.params.dummyTx] [r, v]) (.byte v)
      (s.primitive (fmtWR op 1) resByte) := by
  obtain ⟨r, rs, hlen, hran⟩ := primitive_fmtWR_ran op 1 resByte s
  match rs, hlen with
  | [v], _ => exact ⟨r, v, hran⟩

/-! ## Operations that are never rejected (R120, R121, R123 to R125) -/

/-- Settles O9: both levels are the format W1 with the opcode of RESET. -/
theorem resetSendsOneByte : Obligations.ResetSendsOneByte := by
  intro s
  obtain ⟨r, hran⟩ := primitive_fmtW1_ran .reset s
  exact ⟨⟨r, _, rfl, hran⟩, ⟨r, _, rfl, hran⟩⟩

/-- Settles O10: both levels are the format WAR. -/
theorem readPresentsThirdAnswer : Obligations.ReadPresentsThirdAnswer := by
  refine ⟨?_, fun a s => ?_⟩
  · rintro ⟨⟩ rfl
    rfl
  · obtain ⟨r0, r1, v, hran⟩ := primitive_fmtWAR_ran a s
    exact ⟨⟨r0, r1, v, _, rfl, hran⟩, ⟨r0, r1, v, _, rfl, hran⟩⟩

/-- Settles O12: both levels are the format WAM. -/
theorem bitmodSendsMaskBeforeValue : Obligations.BitmodSendsMaskBeforeValue := by
  intro a m v s
  obtain ⟨r0, r1, r2, r3, hran⟩ := primitive_fmtWAM_ran a m v s
  exact ⟨⟨r0, r1, r2, r3, _, rfl, hran⟩, ⟨r0, r1, r2, r3, _, rfl, hran⟩⟩

/-- Settles O13: both levels of both reads are the format WR with one byte read. -/
theorem statusReadsPresentOneByte : Obligations.StatusReadsPresentOneByte := by
  refine ⟨?_, ?_, fun s => ?_⟩
  · rintro ⟨⟩ rfl
    rfl
  · rintro ⟨⟩ rfl
    rfl
  · obtain ⟨r, v, hrdstat⟩ := primitive_statusRead_ran .rdstat s
    obtain ⟨r', v', hrxstat⟩ := primitive_statusRead_ran .rxstat s
    exact ⟨⟨r, v, _, rfl, hrdstat⟩, ⟨r', v', _, rfl, hrxstat⟩, ⟨r, v, _, rfl, hrdstat⟩, ⟨r', v', _, rfl, hrxstat⟩⟩

/-! ## Operations with a check (R122, R126, R127) -/

/-- An instruction that writes the bytes under the length check of WRITE: the bracket within 1..13, the rejection
otherwise (R122, R214). -/
theorem exec_checkedWrite {i : Instr} {a : Byte} {bytes : List Byte} {n : Nat} {s : State}
    (he : exec i s = if writeLenOk n then .next (s.primitive (fmtWAW a bytes) resNone)
      else .next (s.reject Status.errLen))
    (hn : n ≤ 13 → bytes.length = n) :
    if 1 ≤ n ∧ n ≤ 13 then
      ∃ rs t, rs.length = 2 + n ∧ exec i s = .next t ∧ s.Ran (bracketEvents (0x02 :: a :: bytes) rs) .none t
    else exec i s = .next (s.rejectedWith 3) := by
  split
  next h =>
    obtain ⟨rs, hlen, hran⟩ := primitive_fmtWAW_ran a bytes s
    exact ⟨rs, _, hn h.2 ▸ hlen, he.trans (if_pos (decide_eq_true h)), hran⟩
  next h => exact he.trans (if_neg (by simpa [writeLenOk] using h))

/-- Settles O11: at both levels the bytes are written under the check, and `LEN` bytes are taken of the thirteen. -/
theorem writeSendsItsBytes : Obligations.WriteSendsItsBytes := by
  intro a len wbuf bytes s
  exact ⟨exec_checkedWrite rfl fun h => by simp [h], exec_checkedWrite rfl fun _ => rfl⟩

/-- Settles O14: the index passes the check for the three buffers, whose opcodes the wire level sends too. -/
theorem rtsSendsItsBuffersOpcode : Obligations.RtsSendsItsBuffersOpcode := by
  intro s
  obtain ⟨r0, hran0⟩ := primitive_fmtW1_ran .rts0 s
  obtain ⟨r1, hran1⟩ := primitive_fmtW1_ran .rts1 s
  obtain ⟨r2, hran2⟩ := primitive_fmtW1_ran .rts2 s
  have hbeyond (idx : Byte) (h : 2 < idx.toNat) : exec (.rts idx) s = .next (s.rejectedWith 2) :=
    exec_of_rejected s (if_neg (by simpa [txIndexOk] using h))
  exact ⟨⟨r0, _, rfl, hran0⟩, ⟨r1, _, rfl, hran1⟩, ⟨r2, _, rfl, hran2⟩, hbeyond,
    ⟨r0, _, rfl, hran0⟩, ⟨r1, _, rfl, hran1⟩, ⟨r2, _, rfl, hran2⟩⟩

theorem readBuffer_of_ok {op : WireOp} {pt : StartPoint} {k : Nat} (h : readLenOk pt k = true) (s : State) :
    s.readBuffer op pt k = s.primitive (fmtWR op k) .block := if_pos h

/-- An instruction that runs a bracket of `k` bytes read presents their answers in order (R127). -/
theorem exec_fastRead {i : Instr} {op : WireOp} {k : Nat} {s : State}
    (he : exec i s = .next (s.primitive (fmtWR op k) .block)) :
    ∃ r rs t, rs.length = k ∧ exec i s = .next t ∧
      s.Ran (bracketEvents (op.byte :: List.replicate k s.params.dummyTx) (r :: rs)) (.block rs) t := by
  obtain ⟨r, rs, hlen, hran⟩ := primitive_fmtWR_ran op k .block s
  exact ⟨r, rs, _, hlen, he, hran⟩

/-- Settles O15: within its limits each of the eight reads passes its checks, and runs the bracket of its opcode. -/
theorem fastReadPresentsTheBytesRead : Obligations.FastReadPresentsTheBytesRead := by
  intro s len k
  have command {idx : Byte} {pt : StartPoint} (hidx : rxIndexOk idx = true) (hlen : readLenOk pt len.toNat = true) :=
    exec_fastRead (exec_rdrxb_of_ok hidx hlen s)
  have wire {i : Instr} (op : WireOp) {pt : StartPoint} (he : exec i s = .next (s.readBuffer op pt k))
      (hk : readLenOk pt k = true) := exec_fastRead (he.trans (congrArg _ (readBuffer_of_ok hk s)))
  refine ⟨fun h => ?_, fun h => ?_, fun h => ?_, fun h => ?_⟩
  · have hlen : readLenOk .ident len.toNat = true := decide_eq_true h
    exact ⟨command (idx := 0) rfl hlen, command (idx := 1) rfl hlen⟩
  · have hlen : readLenOk .data len.toNat = true := decide_eq_true h
    exact ⟨command (idx := 0) rfl hlen, command (idx := 1) rfl hlen⟩
  · have hk : readLenOk .ident k = true := decide_eq_true h
    exact ⟨wire .rdrxb0Id rfl hk, wire .rdrxb1Id rfl hk⟩
  · have hk : readLenOk .data k = true := decide_eq_true h
    exact ⟨wire .rdrxb0Data rfl hk, wire .rdrxb1Data rfl hk⟩

end Sys2Proof.Machine

/-! # The Frame Codec (41_frame_codec.md)

The codec's functions are bit fields; the packings are brought to the shifts of R150 and R151 by library lemmas on
fields, and unpacking is shown to read the type bit and three fields of the block. Each operation is then its brackets
followed by completion, by `exec_of_accepted`; `State.Issued` says what brackets leave before it. -/

namespace Sys2Proof.Machine

open Host (Outcome)
open Sys2Proof.Config

/-! ## The packings as shifts (R150, R151) -/

/-- Only the low three bits of a byte stay when it is shifted left by 5. -/
theorem low3_shiftLeft_five (b : Byte) : (b.setWidth 3).setWidth 8 <<< 5 = b <<< 5 := by
  apply BitVec.eq_of_toNat_eq
  simp only [BitVec.toNat_shiftLeft, BitVec.toNat_setWidth, Nat.shiftLeft_eq]
  omega

theorem low2_eq_mask (b : Byte) : (b.setWidth 2).setWidth 8 = b &&& 0x03 := by
  have hlow : b.toNat % 2 ^ 2 < 2 ^ 2 := Nat.mod_lt _ (by decide)
  apply BitVec.eq_of_toNat_eq
  rw [BitVec.toNat_setWidth, BitVec.toNat_setWidth, Nat.mod_eq_of_lt (by omega)]
  exact (Nat.and_two_pow_sub_one_eq_mod b.toNat 2).symm

/-- Three bits of an identifier, at the top of a byte. -/
theorem field3_shiftLeft_five {w : Nat} (id : BitVec w) (lo : Nat) :
    (id.extractLsb' lo 3).setWidth 8 <<< 5 = (id >>> lo).setWidth 8 <<< 5 := by
  rw [← BitVec.setWidth_extractLsb'_of_le (len₂ := 8) (by decide), low3_shiftLeft_five,
    BitVec.setWidth_ushiftRight_eq_extractLsb]

/-- Two bits of an identifier, at the bottom of a byte. -/
theorem field2_eq_mask {w : Nat} (id : BitVec w) (lo : Nat) :
    (id.extractLsb' lo 2).setWidth 8 = (id >>> lo).setWidth 8 &&& 0x03 := by
  rw [← BitVec.setWidth_extractLsb'_of_le (len₂ := 8) (by decide), low2_eq_mask,
    BitVec.setWidth_ushiftRight_eq_extractLsb]

/-- `PackStd` as shifts (R150). -/
theorem packStd_eq_shifts (id : StdId) :
    packStd id = ⟨(id >>> 3).setWidth 8, id.setWidth 8 <<< 5, 0x00, 0x00⟩ := by
  have hid1 := field3_shiftLeft_five id 0
  rw [BitVec.ushiftRight_zero] at hid1
  rw [packStd, hid1, BitVec.setWidth_ushiftRight_eq_extractLsb]

/-- `PackExt` as shifts (R151). The 0x08 between shifts is read as a natural number cast to a byte, so the two sides
agree by computation only. -/
theorem packExt_eq_shifts (id : ExtId) :
    packExt id = ⟨(id >>> 21).setWidth 8,
      ((id >>> 18).setWidth 8 <<< 5) ||| 0x08 ||| ((id >>> 16).setWidth 8 &&& 0x03),
      (id >>> 8).setWidth 8, id.setWidth 8⟩ := by
  have hid3 : id.setWidth 8 = id.extractLsb' 0 8 := BitVec.setWidth_eq_extractLsb' (by decide)
  rw [packExt, field3_shiftLeft_five, field2_eq_mask, hid3, BitVec.setWidth_ushiftRight_eq_extractLsb (w' := 21),
    BitVec.setWidth_ushiftRight_eq_extractLsb (w' := 8)]
  rfl

/-- Settles O41: each field is a shift cut to its width. -/
theorem packingIsTheShiftFormula : Obligations.PackingIsTheShiftFormula :=
  ⟨packStd_eq_shifts, packExt_eq_shifts⟩

/-- A byte of a narrowed identifier is that byte of the wide one. -/
theorem byte_of_narrowed (id : IdOperand) {w lo : Nat} (h : lo + 8 ≤ w) :
    (id.setWidth w >>> lo).setWidth 8 = (id >>> lo).setWidth 8 := by
  rw [BitVec.setWidth_ushiftRight_eq_extractLsb, BitVec.extractLsb'_setWidth_of_le h,
    BitVec.setWidth_ushiftRight_eq_extractLsb]

/-- `PackStd` of an operand, on the operand itself (R155). -/
theorem packStd_operand (id : IdOperand) :
    packStd (id.setWidth 11) = ⟨(id >>> 3).setWidth 8, id.setWidth 8 <<< 5, 0x00, 0x00⟩ := by
  rw [packStd_eq_shifts, byte_of_narrowed id (by decide), BitVec.setWidth_setWidth_of_le id (by decide)]

/-- `PackExt` of an operand, on the operand itself (R156). -/
theorem packExt_operand (id : IdOperand) :
    packExt (id.setWidth 29) = ⟨(id >>> 21).setWidth 8,
      ((id >>> 18).setWidth 8 <<< 5) ||| 0x08 ||| ((id >>> 16).setWidth 8 &&& 0x03),
      (id >>> 8).setWidth 8, id.setWidth 8⟩ := by
  rw [packExt_eq_shifts, byte_of_narrowed id (by decide), byte_of_narrowed id (by decide),
    byte_of_narrowed id (by decide), byte_of_narrowed id (by decide), BitVec.setWidth_setWidth_of_le id (by decide)]

/-! ## Unpacking (R96, R152) -/

theorem unpackId_of_standard {b : IdBlock} (h : b.id1.getLsbD 3 = false) :
    unpackId b = (.standard, (stdField b).setWidth 29) := by
  rw [unpackId, h]
  rfl

theorem packStd_type_bit (i : StdId) : (packStd i).id1.getLsbD 3 = false := by
  simp [packStd]

theorem packExt_type_bit (i : ExtId) : (packExt i).id1.getLsbD 3 = true := by
  simp [packExt]

/-- The 11-bit field of a packed Standard identifier is the identifier. -/
theorem stdField_packStd (i : StdId) : stdField (packStd i) = i := by
  apply BitVec.eq_of_getLsbD_eq
  intro k hk
  simp only [stdField, packStd, field, BitVec.getLsbD_or, BitVec.getLsbD_shiftLeft, BitVec.getLsbD_setWidth,
    BitVec.getLsbD_extractLsb']
  by_cases h3 : k < 3
  · simp [hk, h3, show 5 + k < 8 by omega, show k < 8 by omega]
  · simp [hk, h3, show k - 3 < 11 by omega, show k - 3 < 8 by omega, show 3 + (k - 3) = k by omega]

theorem unpackId_packStd (i : StdId) : unpackId (packStd i) = (.standard, i.setWidth 29) := by
  rw [unpackId_of_standard (packStd_type_bit i), stdField_packStd]

/-- ID1 of a packed Extended identifier: its bits 17..16 at the bottom. -/
theorem packExt_id1_low (i : ExtId) {k : Nat} (hk : k < 2) : (packExt i).id1.getLsbD k = i.getLsbD (16 + k) := by
  obtain rfl | rfl : k = 0 ∨ k = 1 := by omega
  · simp [packExt]
  · simp [packExt]

/-- ID1 of a packed Extended identifier: its bits 20..18 at the top. -/
theorem packExt_id1_high (i : ExtId) {k : Nat} (hk : k < 3) :
    (packExt i).id1.getLsbD (5 + k) = i.getLsbD (18 + k) := by
  obtain rfl | rfl | rfl : k = 0 ∨ k = 1 ∨ k = 2 := by omega
  · simp [packExt]
  · simp [packExt]
  · simp [packExt]

theorem unpackId_packExt (i : ExtId) : unpackId (packExt i) = (.extended, i) := by
  refine Prod.ext (by rw [unpackId_type, packExt_type_bit]; rfl) (BitVec.eq_of_getLsbD_eq fun k hk => ?_)
  rw [unpackId_extended_bit (packExt_type_bit i) hk]
  split
  next h => simp [packExt, h]
  split
  next h8 h => simp [packExt, show k - 8 < 8 by omega, show 8 + (k - 8) = k by omega]
  split
  next h16 h => rw [packExt_id1_low i (by omega), show 16 + (k - 16) = k by omega]
  split
  next h18 h => rw [show k - 13 = 5 + (k - 18) by omega, packExt_id1_high i (by omega), show 18 + (k - 18) = k by omega]
  next h21 => simp [packExt, show k - 21 < 8 by omega, show 21 + (k - 21) = k by omega]

/-- A field outside a mask does not see a change under it. -/
theorem field_xor_masked (b m : Byte) {mask : Byte} {lo w : Nat} (h : field mask lo w = 0) :
    field (b ^^^ (m &&& mask)) lo w = field b lo w := by
  have hmask : mask.extractLsb' lo w = 0 := h
  simp [field, BitVec.extractLsb'_xor, BitVec.extractLsb'_and, hmask]

/-- Unpacking reads ID0, the type bit and two fields of ID1, ID2 and ID3 (R96). -/
theorem unpackId_congr_id1 {b : IdBlock} {id1 : Byte} (hbit : id1.getLsbD 3 = b.id1.getLsbD 3)
    (hhigh : field id1 5 3 = field b.id1 5 3) (hlow : field id1 0 2 = field b.id1 0 2) :
    unpackId { b with id1 := id1 } = unpackId b := by
  unfold unpackId stdField
  dsimp only
  rw [hbit, hhigh, hlow]

/-- Settles O42: unpacking inverts both packings, which makes them injective and disjoint; the unused bits lie outside
the fields it reads. -/
theorem unpackInvertsPack : Obligations.UnpackInvertsPack := by
  refine ⟨unpackId_packStd, unpackId_packExt, fun b m => ?_, fun b m b2 b3 h => ?_, fun i j h => ?_, fun i j h => ?_,
    fun i j h => ?_⟩
  · have hbit : (b.id1 ^^^ (m &&& 0x14)).getLsbD 3 = b.id1.getLsbD 3 := by simp
    exact unpackId_congr_id1 hbit (field_xor_masked b.id1 m rfl) (field_xor_masked b.id1 m rfl)
  · have hbit : (b.id1 ^^^ (m &&& 0x03)).getLsbD 3 = false := by
      rw [BitVec.getLsbD_xor, h, BitVec.getLsbD_and]
      simp
    rw [unpackId_of_standard hbit, unpackId_of_standard h, stdField, stdField,
      field_xor_masked b.id1 m (mask := 0x03) rfl]
  · rw [← stdField_packStd i, h, stdField_packStd]
  · have hpair := congrArg unpackId h
    rw [unpackId_packExt, unpackId_packExt] at hpair
    exact congrArg Prod.snd hpair
  · have hpair := congrArg unpackId h
    rw [unpackId_packStd, unpackId_packExt] at hpair
    cases hpair

/-! ## The data-length byte (R153) -/

/-- A legal length fits the low four bits of a byte (R94). -/
theorem field_low4_toNat {len : Byte} (h : len.toNat ≤ 8) : (field len 0 4).toNat = len.toNat := by
  rw [field, BitVec.extractLsb'_toNat, Nat.shiftRight_zero, Nat.mod_eq_of_lt (by omega)]

theorem field_low4 {len : Byte} (h : len.toNat ≤ 8) : (field len 0 4).setWidth 8 = len := by
  apply BitVec.eq_of_toNat_eq
  rw [BitVec.toNat_setWidth, field_low4_toNat h, Nat.mod_eq_of_lt (by omega)]

/-- Settles O44: for a legal length nothing is cut off. -/
theorem dataLengthByteIsAsListed : Obligations.DataLengthByteIsAsListed := by
  intro len h
  simp [dlcByte, field_low4 h]

/-! ## Identifier writes (R155, R156) -/

theorem txIndexOk_of_le {idx : Byte} (h : idx.toNat ≤ 2) : txIndexOk idx = true := decide_eq_true h

theorem txIndexOk_of_gt {idx : Byte} (h : 2 < idx.toNat) : txIndexOk idx = false := decide_eq_false (by omega)

/-- The largest identifier of a frame type (R154). -/
def idLimit (ty : FrameType) : Nat := if ty = .standard then 0x7FF else 0x1FFFFFFF

theorem idFits_eq (ty : FrameType) (id : IdOperand) : idFits ty id = decide (id.toNat ≤ idLimit ty) := by
  cases ty <;> rfl

theorem idFits_of_le {ty : FrameType} {id : IdOperand} (h : id.toNat ≤ idLimit ty) : idFits ty id = true := by
  rw [idFits_eq]
  exact decide_eq_true h

theorem idFits_of_gt {ty : FrameType} {id : IdOperand} (h : idLimit ty < id.toNat) : idFits ty id = false := by
  rw [idFits_eq]
  exact decide_eq_false (Nat.not_le.2 h)

/-- An instruction that checks index and identifier, and then writes an identifier block in one bracket: the first
failing check rejects it, else it runs that bracket. -/
theorem exec_idWrite {i : Instr} {idx : Byte} {ty : FrameType} {id : IdOperand} {b : IdBlock} {s : State}
    (hr : Instr.rejection i = if !txIndexOk idx then some Status.errIndex
      else if idFits ty id then none else some Status.errId)
    (hb : s.opBrackets i = [idBracket s.params idx b])
    (hf : ∀ u : State, u.finish i = u.complete Status.ok (resNone u.rx)) :
    if 2 < idx.toNat then exec i s = .next (s.rejectedWith 2)
    else if idLimit ty < id.toNat then exec i s = .next (s.rejectedWith 4)
    else ∃ rs t, rs.length = 6 ∧ exec i s = .next t ∧
      s.Ran (bracketEvents (0x02 :: familyAddr s.params.map.txbSidh idx :: b.toList) rs) .none t := by
  split
  next hidx => exact exec_of_rejected s (by rw [hr, txIndexOk_of_gt hidx]; rfl)
  next hidx =>
    rw [txIndexOk_of_le (Nat.not_lt.1 hidx)] at hr
    split
    next hid => exact exec_of_rejected s (by rw [hr, idFits_of_gt hid]; rfl)
    next hid =>
      have hacc : Instr.rejection i = none := by rw [hr, idFits_of_le (Nat.not_lt.1 hid)]; rfl
      obtain ⟨rs, hlen, hran⟩ := primitive_fmtWAW_ran (familyAddr s.params.map.txbSidh idx) b.toList s
      exact ⟨rs, _, hlen, (exec_of_accepted s hacc).trans (congrArg _ (finish_ranBrackets_primitive hb hf)), hran⟩

/-- Settles O16: an identifier write of the Standard packing. -/
theorem setsidWritesStandardIdentifier : Obligations.SetsidWritesStandardIdentifier := by
  refine ⟨?_, fun idx id s => ?_⟩
  · rintro ⟨⟩ rfl
    rfl
  · have h := exec_idWrite (i := .setsid idx id) (ty := .standard) (s := s) rfl rfl fun _ => rfl
    rw [packStd_operand] at h
    exact h

/-- Settles O17: an identifier write of the Extended packing. -/
theorem seteidWritesExtendedIdentifier : Obligations.SeteidWritesExtendedIdentifier := by
  refine ⟨?_, fun idx id s => ?_⟩
  · rintro ⟨⟩ rfl
    rfl
  · have h := exec_idWrite (i := .seteid idx id) (ty := .extended) (s := s) rfl rfl fun _ => rfl
    rw [packExt_operand] at h
    exact h

/-! ## What brackets leave (R13, R28) -/

/-- `t` is `s` after whole brackets that issued `ev`: the chip is deselected, the environment (MOCK, the answers fixed
in advance, the free values drawn) may be anything, and every other part of the state is as in `s` (R14, R28). -/
def State.Issued (s : State) (ev : List Event) (t : State) : Prop :=
  ∃ mock answers fresh,
    t = { s with
      cs := .deselected, trace := s.trace ++ ev, mock := mock, answers := answers, fresh := fresh }

theorem State.Issued.params {s t : State} {ev : List Event} (h : s.Issued ev t) : t.params = s.params := by
  obtain ⟨_, _, _, rfl⟩ := h
  rfl

theorem State.Issued.trans {s t u : State} {ev ev' : List Event} (h : s.Issued ev t) (h' : t.Issued ev' u) :
    s.Issued (ev ++ ev') u := by
  obtain ⟨_, _, _, rfl⟩ := h
  obtain ⟨mock, answers, fresh, rfl⟩ := h'
  exact ⟨mock, answers, fresh, by simp⟩

/-- Brackets followed by completion with `OK` are an operation that ran (R26, R29). -/
theorem State.Issued.complete {s t : State} {ev : List Event} (h : s.Issued ev t) (res : Result) :
    s.Ran ev res (t.complete Status.ok res) := by
  obtain ⟨mock, answers, fresh, rfl⟩ := h
  exact ⟨mock, answers, fresh, rfl⟩

/-- Where `SF` is loaded before completion, the operation ran but for the write of `SF` (R24, R158). -/
theorem State.Issued.loadScratch_complete {s t : State} {ev : List Event} (h : s.Issued ev t) (rem : Bool)
    (bs : List Byte) (res : Result) :
    { s with sf := decodeFrame rem bs t.fresh }.Ran ev res ((t.loadScratch rem bs).complete Status.ok res) := by
  obtain ⟨mock, answers, fresh, rfl⟩ := h
  exact ⟨mock, answers, _, rfl⟩

/-- A bracket issues its events, and receives the answers in read positions (R13, R88). -/
theorem bracket_issued (xs : List Xfer) (s : State) :
    ∃ rs, rs.length = xs.length ∧ (s.bracket xs).1 = recvOf xs rs ∧
      s.Issued (bracketEvents (sentOf s.params.dummyTx xs) rs) (s.bracket xs).2 := by
  obtain ⟨rs, mock, answers, fresh, hlen, h⟩ := bracket_spec xs s
  exact ⟨rs, hlen, by rw [h], mock, answers, fresh, by rw [h]⟩

/-! ## TXFRAME (R157) -/

/-- A WRITE bracket sends its opcode, its address and its bytes (R83). -/
theorem sentOf_fmtWAW (d a : Byte) (bytes : List Byte) : sentOf d (fmtWAW a bytes) = 0x02 :: a :: bytes :=
  congrArg (fun ts => 0x02 :: a :: ts) (sentOf_map_send d bytes)

theorem sentOf_idBracket (d : Byte) (p : Params) (idx : Byte) (b : IdBlock) :
    sentOf d (idBracket p idx b) = 0x02 :: familyAddr p.map.txbSidh idx :: b.toList :=
  sentOf_fmtWAW d _ _

/-- The bytes after the identifier block: the data-length byte, and the payload unless the frame is remote (R157). -/
def dlcAndData (p : Params) (f : CanFrame) : List Byte :=
  dlcByte p.remoteDlc f.isRemote f.dataLength ::
    if f.isRemote then [] else f.data.toList.take f.dataLength.toNat

theorem sentOf_dataBracket (d : Byte) (p : Params) (idx : Byte) (f : CanFrame) :
    sentOf d (dataBracket p idx f) = 0x02 :: familyAddr p.map.txbDlc idx :: dlcAndData p f :=
  sentOf_fmtWAW d _ _

theorem rtsOp_byte {idx : Byte} (h : idx.toNat ≤ 2) :
    (rtsOp idx).byte = if idx = 0 then 0x81 else if idx = 1 then 0x82 else 0x84 := by
  obtain rfl | rfl | rfl := byte_le_two h <;> rfl

/-- An accepted TXFRAME is its three brackets, one after another (R157). -/
theorem exec_txframe_ran {idx : Byte} {f : CanFrame} (s : State) (h : Instr.rejection (.txframe idx f) = none) :
    ∃ rs1 rs2 r t, rs1.length = 6 ∧ rs2.length = 2 + (dlcAndData s.params f).length ∧
      exec (.txframe idx f) s = .next t ∧
      s.Ran
        (bracketEvents
            (0x02 :: familyAddr s.params.map.txbSidh idx :: (packFrameId f.frameType f.id).toList) rs1 ++
          bracketEvents (0x02 :: familyAddr s.params.map.txbDlc idx :: dlcAndData s.params f) rs2 ++
          bracketEvents [(rtsOp idx).byte] [r]) .none t := by
  obtain ⟨rs1, hlen1, -, h1⟩ := bracket_issued (idBracket s.params idx (packFrameId f.frameType f.id)) s
  obtain ⟨rs2, hlen2, -, h2⟩ := bracket_issued (dataBracket s.params idx f)
    (s.bracket (idBracket s.params idx (packFrameId f.frameType f.id))).2
  obtain ⟨rs3, hlen3, -, h3⟩ := bracket_issued (fmtW1 (rtsOp idx))
    ((s.bracket (idBracket s.params idx (packFrameId f.frameType f.id))).2.bracket (dataBracket s.params idx f)).2
  rw [sentOf_idBracket] at h1
  rw [sentOf_dataBracket] at h2
  match rs3, hlen3 with
  | [r], _ =>
    exact ⟨rs1, rs2, r, _, hlen1, hlen2.trans (fmtWAW_length _ _), exec_of_accepted s h,
      ((h1.trans h2).trans h3).complete .none⟩

/-- The checks of TXFRAME, passed (R157, R220). -/
theorem rejection_txframe_eq_none {idx : Byte} {f : CanFrame} (hidx : idx.toNat ≤ 2)
    (hlen : f.dataLength.toNat ≤ 8) (hid : idFits f.frameType f.id = true) :
    Instr.rejection (.txframe idx f) = none :=
  checkThen_eq_none.2 ⟨txIndexOk_of_le hidx, checkThen_eq_none.2 ⟨decide_eq_true hlen, check_eq_none.2 hid⟩⟩

theorem packFrameId_eq (ty : FrameType) (id : IdOperand) :
    packFrameId ty id = if ty = .standard then packStd (id.setWidth 11) else packExt (id.setWidth 29) := by
  cases ty <;> rfl

/-- Settles O18: the first failing check rejects; else the three brackets run. -/
theorem txframeRunsThreeBrackets : Obligations.TxframeRunsThreeBrackets := by
  refine ⟨?_, fun idx f s => ?_⟩
  · rintro ⟨⟩ rfl
    rfl
  have hlimit : (if f.frameType = .standard then 0x7FF else 0x1FFFFFFF) = idLimit f.frameType := rfl
  rw [hlimit]
  split
  next hgt => exact exec_of_rejected s (by rw [Instr.rejection, txIndexOk_of_gt hgt]; rfl)
  next hle =>
  have hidx : idx.toNat ≤ 2 := Nat.not_lt.1 hle
  split
  next hgt =>
    have hbad : dataLengthOk f.dataLength = false := decide_eq_false (Nat.not_le.2 hgt)
    exact exec_of_rejected s (by rw [Instr.rejection, txIndexOk_of_le hidx, hbad]; rfl)
  next hle =>
  have hlen : f.dataLength.toNat ≤ 8 := Nat.not_lt.1 hle
  split
  next hgt =>
    have hok : dataLengthOk f.dataLength = true := decide_eq_true hlen
    exact exec_of_rejected s (by rw [Instr.rejection, txIndexOk_of_le hidx, hok, idFits_of_gt hgt]; rfl)
  next hle =>
  obtain ⟨rs1, rs2, r, t, hlen1, hlen2, hexec, hran⟩ :=
    exec_txframe_ran s (rejection_txframe_eq_none hidx hlen (idFits_of_le (Nat.not_lt.1 hle)))
  rw [rtsOp_byte hidx, packFrameId_eq] at hran
  exact ⟨_, rs1, rs2, r, t, hlen1, hlen2.trans (Nat.add_comm _ _), rfl, hexec, hran⟩

/-! ## RXFRAME (R158) -/

theorem rdRxOp_ident_byte {idx : Byte} (h : idx.toNat ≤ 1) :
    (rdRxOp idx .ident).byte = if idx = 0 then 0x90 else 0x94 := by
  obtain rfl | rfl := byte_le_one h <;> rfl

/-- How many bytes RXFRAME's second bracket reads (R158). -/
def frameReads (rem : Bool) : Nat := if rem then 4 else 13

theorem sentOf_frameBracket (d idx : Byte) (rem : Bool) :
    sentOf d (frameBracket idx rem) = (rdRxOp idx .ident).byte :: List.replicate (frameReads rem) d :=
  congrArg (List.cons _) (sentOf_replicate_recv d _)

/-- The answer to the opcode is discarded; the others are the bytes received (R88). -/
theorem recvOf_frameBracket {idx q : Byte} {rem : Bool} {bs : List Byte} (h : bs.length = frameReads rem) :
    recvOf (frameBracket idx rem) (q :: bs) = bs :=
  recvOf_replicate_recv h

/-- RXFRAME by what its two brackets receive: the control byte, whose remote flag chooses the second bracket, and the
bytes that are decoded into `SF` (R158). -/
theorem exec_rxframe_of_received {idx c : Byte} {rem : Bool} {bs : List Byte} {s s1 s2 : State}
    (hidx : idx.toNat ≤ 1) (hrem : c.getLsbD s.params.rxRtrBit = rem)
    (h1 : s.bracket (controlBracket s.params idx) = ([c], s1))
    (h2 : s1.bracket (frameBracket idx rem) = (bs, s2)) :
    exec (.rxframe idx) s = .next
      ((s2.loadScratch rem bs).complete Status.ok (.frame (decodeFrame rem bs s2.fresh))) := by
  have hflag : remoteFlag s.params [c] = rem := hrem
  simp only [exec, execRxframe, rxIndexOk_of_le hidx, if_true, h1, hflag, h2, loadScratch_sf]

/-- An accepted RXFRAME is its two brackets, whose answers are decoded into `SF` (R158). -/
theorem exec_rxframe_ran {idx : Byte} (h : idx.toNat ≤ 1) (s : State) :
    ∃ r0 r1 c rem q bs n t, c.getLsbD s.params.rxRtrBit = rem ∧ bs.length = frameReads rem ∧
      exec (.rxframe idx) s = .next t ∧
      { s with sf := decodeFrame rem bs n }.Ran
        (bracketEvents [0x03, familyAddr s.params.map.rxbCtrl idx, s.params.dummyTx] [r0, r1, c] ++
          bracketEvents ((rdRxOp idx .ident).byte :: List.replicate (frameReads rem) s.params.dummyTx) (q :: bs))
        (.frame (decodeFrame rem bs n)) t := by
  obtain ⟨rs1, hlen1, hrecv1, hissued1⟩ := bracket_issued (controlBracket s.params idx) s
  match rs1, hlen1 with
  | [r0, r1, c], _ =>
    obtain ⟨rs2, hlen2, hrecv2, hissued2⟩ :=
      bracket_issued (frameBracket idx (c.getLsbD s.params.rxRtrBit)) (s.bracket (controlBracket s.params idx)).2
    obtain ⟨q, bs, rfl⟩ := List.exists_cons_of_length_eq_add_one hlen2
    have hlen : bs.length = frameReads (c.getLsbD s.params.rxRtrBit) :=
      (Nat.succ.inj hlen2).trans List.length_replicate
    rw [sentOf_frameBracket, hissued1.params] at hissued2
    rw [recvOf_frameBracket hlen] at hrecv2
    exact ⟨r0, r1, c, _, q, bs, _, _, rfl, hlen,
      exec_rxframe_of_received h rfl (Prod.ext hrecv1 rfl) (Prod.ext hrecv2 rfl),
      (hissued1.trans hissued2).loadScratch_complete _ bs _⟩

/-- Settles O19: the two brackets, and the fields of the frame that is decoded from their answers. -/
theorem rxframeDecodesIntoScratchFrame : Obligations.RxframeDecodesIntoScratchFrame := by
  refine ⟨?_, fun idx s => ?_⟩
  · rintro ⟨⟩ rfl
    rfl
  split
  next hgt =>
    have hbad : rxIndexOk idx = false := decide_eq_false (Nat.not_le.2 hgt)
    exact exec_of_rejected s (by rw [Instr.rejection, hbad]; rfl)
  next hle =>
    have hidx : idx.toNat ≤ 1 := Nat.not_lt.1 hle
    obtain ⟨r0, r1, c, rem, q, bs, n, t, hrem, hlen, hexec, hran⟩ := exec_rxframe_ran hidx s
    rw [rdRxOp_ident_byte hidx] at hran
    cases rem with
    | true =>
      match bs, hlen with
      | [b0, b1, b2, b3], _ =>
        refine ⟨r0, r1, c, q, b0, b1, b2, b3, t, _, _, hexec, hran, rfl, hrem.symm, rfl, ?_⟩
        rw [if_pos hrem]
        exact ⟨rfl, rfl⟩
    | false =>
      match bs, hlen with
      | [b0, b1, b2, b3, l, d0, d1, d2, d3, d4, d5, d6, d7], _ =>
        refine ⟨r0, r1, c, q, b0, b1, b2, b3, t, _, _, hexec, hran, rfl, hrem.symm, rfl, ?_⟩
        rw [hrem]
        exact ⟨l, (BitVec.setWidth_eq_extractLsb' (by decide)).symm, rfl⟩

/-! ## A transmitted frame, received (R160) -/

/-- The register bytes of a WRITE bracket are those after opcode and address. -/
theorem registerBytes_write {a : Byte} {bytes rs : List Byte} (h : rs.length = 2 + bytes.length) (ev : List Event) :
    registerBytes (bracketEvents (0x02 :: a :: bytes) rs ++ ev) = bytes ++ registerBytes ev := by
  have hlen : (0x02 :: a :: bytes).length = rs.length := by
    simp only [List.length_cons, h]
    omega
  rw [registerBytes, sentBrackets_bracketEvents hlen]
  rfl

/-- An RTS bracket writes no register. -/
theorem registerBytes_rts {idx : Byte} (h : idx.toNat ≤ 2) (r : Byte) :
    registerBytes (bracketEvents [(rtsOp idx).byte] [r]) = [] := by
  obtain rfl | rfl | rfl := byte_le_two h <;> rfl

/-- The register bytes of an accepted TXFRAME are its identifier block and what follows it (R157). -/
theorem registerBytes_txframe {idx : Byte} {f : CanFrame} {s t : State} {ev : List Event} (hidx : idx.toNat ≤ 2)
    (hacc : Instr.rejection (.txframe idx f) = none) (hexec : exec (.txframe idx f) s = .next t)
    (htr : t.trace = s.trace ++ ev) :
    registerBytes ev = (packFrameId f.frameType f.id).toList ++ dlcAndData s.params f := by
  obtain ⟨rs1, rs2, r, t', hlen1, hlen2, hexec', _, _, _, hran⟩ := exec_txframe_ran s hacc
  cases hexec.symm.trans hexec'
  rw [hran] at htr
  rw [← List.append_cancel_left htr, List.append_assoc, registerBytes_write hlen1, registerBytes_write hlen2,
    registerBytes_rts hidx, List.append_nil]

/-- An RXFRAME whose answers are fixed in advance decodes those in its read positions (R158). -/
theorem exec_rxframe_of_answers {idx x0 x1 c x2 : Byte} {rem : Bool} {bs rest : List Byte} {s : State}
    (hidx : idx.toNat ≤ 1) (henv : s.env = .oracle) (hrem : c.getLsbD s.params.rxRtrBit = rem)
    (hans : s.answers = [x0, x1, c] ++ (x2 :: bs ++ rest)) (hlen : bs.length = frameReads rem) :
    ∃ t, exec (.rxframe idx) s = .next t ∧ t.answers = rest ∧ t.sf = decodeFrame rem bs s.fresh := by
  have h1 := bracket_oracle (xs := controlBracket s.params idx) henv hans rfl
  have h2 := bracket_oracle (xs := frameBracket idx rem) (s := (s.bracket (controlBracket s.params idx)).2)
    (rs := x2 :: bs) (rest := rest) (by rw [h1]; exact henv) (by rw [h1])
    (by simp only [frameBracket_length, List.length_cons, hlen]; cases rem <;> rfl)
  rw [recvOf_frameBracket hlen, h1] at h2
  exact ⟨_, exec_rxframe_of_received hidx hrem h1 h2, rfl, rfl⟩

/-- A packed identifier unpacks to its type and its value (R152). -/
theorem unpackId_packFrameId {ty : FrameType} {id : IdOperand} (h : idFits ty id = true) :
    (unpackId (packFrameId ty id)).1 = ty ∧ (unpackId (packFrameId ty id)).2.toNat = id.toNat := by
  have hid : id.toNat ≤ idLimit ty := of_decide_eq_true (idFits_eq ty id ▸ h)
  cases ty with
  | standard =>
    have hlt : id.toNat ≤ 0x7FF := hid
    rw [packFrameId, unpackId_packStd]
    exact ⟨rfl, by simp only [BitVec.toNat_setWidth]; omega⟩
  | extended =>
    have hlt : id.toNat ≤ 0x1FFFFFFF := hid
    rw [packFrameId, unpackId_packExt]
    exact ⟨rfl, by simp only [BitVec.toNat_setWidth]; omega⟩

/-- After the data-length byte of a data frame stand its payload bytes (R158). -/
theorem decodeFrame_data (b : IdBlock) (l : Byte) (ds : List Byte) (n : Nat) (k : Fin 8) :
    (decodeFrame false (b.toList ++ l :: ds) n).data[k] = ds.getD k 0 := by
  fin_cases k <;> rfl

/-- A data frame's bytes after the identifier block: its length, then as many bytes (R153, R157). -/
theorem dlcAndData_of_data {f : CanFrame} (p : Params) (hdata : f.isRemote = false) (hlen : f.dataLength.toNat ≤ 8) :
    dlcAndData p f = f.dataLength :: f.data.toList.take f.dataLength.toNat := by
  simp [dlcAndData, dlcByte, hdata, field_low4 hlen]

/-- Settles O47: the register bytes are the packed identifier and the payload, which RXFRAME's decoding inverts. -/
theorem transmittedFrameIsReceived : Obligations.TransmittedFrameIsReceived := by
  intro n m f s t u ev x0 x1 x2 c pad rest hn hm hlen hid hexec htr henv hrem
  obtain ⟨htype, hident⟩ := unpackId_packFrameId hid
  rw [registerBytes_txframe hn (rejection_txframe_eq_none hn hlen hid) hexec htr]
  refine ⟨fun hdata hpad hans => ?_, fun hremote hans => ?_⟩
  · have hsent : (f.data.toList.take f.dataLength.toNat).length = f.dataLength.toNat := by simp [hlen]
    rw [dlcAndData_of_data s.params hdata hlen] at hans
    obtain ⟨v, hv, hrest, hsf⟩ := exec_rxframe_of_answers (rem := false) (rest := rest) hm henv (hrem.trans hdata)
      (bs := (packFrameId f.frameType f.id).toList ++
        f.dataLength :: (f.data.toList.take f.dataLength.toNat ++ pad))
      (by simpa using hans) (by simp [IdBlock.toList, frameReads, hsent, hpad]; omega)
    refine ⟨v, hv, hrest, ?_⟩
    rw [hsf]
    refine ⟨rfl, htype, hident, rfl, field_low4_toNat hlen, fun k hk => ?_⟩
    rw [decodeFrame_data]
    simp [List.getD_eq_getElem?_getD, List.getElem?_append_left, hk]
  · obtain ⟨v, hv, hrest, hsf⟩ := exec_rxframe_of_answers (rem := true) (rest := rest) hm henv (hrem.trans hremote)
      (bs := (packFrameId f.frameType f.id).toList) (by simpa [IdBlock.toList] using hans) rfl
    refine ⟨v, hv, hrest, ?_⟩
    rw [hsf]
    exact ⟨rfl, htype, hident, rfl, rfl⟩

end Sys2Proof.Machine

/-! # The host-level sequences (42_host_sequences.md)

A sequence goes from one operation to the next by `State.run`. Each section says first what one operation contributes
(the setup it keeps, the answers it consumes, the register of MOCK it stores to), and then follows the sequence step by
step. -/

namespace Sys2Proof.Machine

open Sys2Proof.Config

/-! ## One operation run by the host -/

theorem run_of_exec {i : Instr} {s t : State} (h : exec i s = .next t) : s.run i = t := by rw [State.run, h]

theorem run_sameSetup (i : Instr) (s : State) : s.SameSetup (s.run i) := exec_sameSetup (exec_eq_run i s)

theorem idxByte_toNat {n : Nat} (hn : n ≤ 256) (i : Fin n) : (idxByte i).toNat = i := by
  simp only [idxByte, BitVec.toNat_ofNat]
  omega

theorem res_of_result {s : State} {v : Byte} (h : s.result = .byte v) : s.res = v := by rw [State.res, h]

theorem State.Ran.res {s t : State} {ev : List Event} {v : Byte} (h : s.Ran ev (.byte v) t) : t.res = v := by
  obtain ⟨_, _, _, rfl⟩ := h
  rfl

theorem State.Ran.params {s t : State} {ev : List Event} {res : Result} (h : s.Ran ev res t) :
    t.params = s.params := by
  obtain ⟨_, _, _, rfl⟩ := h
  rfl

/-! ## The transmit error (R186) -/

/-- Settles O59: the four values of the two bits are the four cases of the mapping. -/
theorem transmitErrorMapsTwoBits : Obligations.TransmitErrorMapsTwoBits := by
  intro p v
  refine ⟨fun h5 h4 => ?_, fun h5 h4 => ?_, fun h5 h4 => ?_, fun h5 h4 => ?_⟩ <;> rw [transmitErrorOf, h5, h4]

/-! ## The mode request (R181 to R183) -/

/-- A primitive operation whose answers are fixed in advance consumes exactly those, and presents what stands in its
read positions (R88). -/
theorem primitive_of_answers {xs : List Xfer} {s : State} {rs rest : List Byte} (res : List Byte → Result)
    (henv : s.env = .oracle) (hans : s.answers = rs ++ rest) (hlen : rs.length = xs.length) :
    (s.primitive xs res).result = res (recvOf xs rs) ∧ (s.primitive xs res).answers = rest := by
  rw [State.primitive, bracket_oracle henv hans hlen]
  exact ⟨rfl, rfl⟩

theorem run_bitmod_answers {a m v : Byte} {s : State} {w rest : List Byte} (henv : s.env = .oracle)
    (hlen : w.length = 4) (hans : s.answers = w ++ rest) : (s.run (.bitmod a m v)).answers = rest :=
  (primitive_of_answers (xs := fmtWAM a m v) resNone henv hans hlen).2

/-- The mode field is that of the third answer (R182). -/
theorem readModeField_of_answers {s : State} {r0 r1 v : Byte} {rest : List Byte} (henv : s.env = .oracle)
    (hans : s.answers = [r0, r1, v] ++ rest) :
    (readModeField s).1 = field v 5 3 ∧ (readModeField s).2.answers = rest := by
  obtain ⟨hres, hrest⟩ := primitive_of_answers (xs := fmtWAR s.params.map.canstat) resByte henv hans rfl
  exact ⟨congrArg (field · 5 3) (res_of_result hres), hrest⟩

/-- The answers of polls, three to each READ. -/
def pollAnswers (polls : List (Byte × Byte × Byte)) : List Byte := polls.flatMap fun q => [q.1, q.2.1, q.2.2]

theorem pollMode_of_confirmed {target : Mode} {s : State}
    (h : (readModeField s).1 = s.params.modeCode.code target) (n : Nat) :
    pollMode target (n + 1) s = (true, (readModeField s).2) := if_pos h

theorem pollMode_of_unconfirmed {target : Mode} {s : State}
    (h : (readModeField s).1 ≠ s.params.modeCode.code target) (n : Nat) :
    pollMode target (n + 1) s = pollMode target n (readModeField s).2 := if_neg h

/-- Polls that do not show the mode are repeated: what is left is the loop with so many polls fewer, from a state that
has consumed their answers (R183). -/
theorem pollMode_after_unconfirmed {target : Mode} {polls : List (Byte × Byte × Byte)} {s : State} {rest : List Byte}
    (henv : s.env = .oracle) (hother : ∀ q ∈ polls, field q.2.2 5 3 ≠ s.params.modeCode.code target)
    (hans : s.answers = pollAnswers polls ++ rest) (n : Nat) :
    ∃ t, pollMode target (n + polls.length) s = pollMode target n t ∧ s.SameSetup t ∧ t.answers = rest := by
  induction polls generalizing s with
  | nil => exact ⟨s, rfl, ⟨rfl, rfl, rfl⟩, hans⟩
  | cons q polls ih =>
    obtain ⟨hq, hpolls⟩ := List.forall_mem_cons.1 hother
    obtain ⟨hfield, hrest⟩ := readModeField_of_answers (v := q.2.2) (rest := pollAnswers polls ++ rest) henv hans
    have hsetup : s.SameSetup (readModeField s).2 := run_sameSetup (.read s.params.map.canstat) s
    obtain ⟨t, hpoll, hsetup', ht⟩ := ih (hsetup.env.trans henv) (hsetup.params ▸ hpolls) hrest
    exact ⟨t, (pollMode_of_unconfirmed (hfield ▸ hq) _).trans hpoll, hsetup.trans hsetup', ht⟩

/-- `requestMode` is its bit-modify and then the polls: after those that do not show the mode, the loop goes on with
so many polls fewer (R183). -/
theorem requestMode_after_unconfirmed {target : Mode} {s : State} {w rest : List Byte}
    {polls : List (Byte × Byte × Byte)} (henv : s.env = .oracle) (hw : w.length = 4)
    (hother : ∀ q ∈ polls, field q.2.2 5 3 ≠ s.params.modeCode.code target)
    (hans : s.answers = w ++ (pollAnswers polls ++ rest)) (n : Nat) :
    ∃ t, requestMode target (n + polls.length) s = pollMode target n t ∧ s.SameSetup t ∧ t.answers = rest := by
  have hsetup : s.SameSetup (s.run (modeRequest s.params target)) := run_sameSetup _ s
  obtain ⟨t, hpoll, hsetup', ht⟩ := pollMode_after_unconfirmed (hsetup.env.trans henv) (hsetup.params ▸ hother)
    (run_bitmod_answers henv hw hans) n
  exact ⟨t, hpoll, hsetup.trans hsetup', ht⟩

/-- Settles O57: the field is that of the answered byte, mapped back; and the polls that do not show the mode leave a
loop with no poll, or with one that confirms it at once. -/
theorem requestModePollsUntilConfirmed : Obligations.RequestModePollsUntilConfirmed := by
  refine ⟨fun s r0 r1 v rest henv hans => ?_, fun target s w polls rest henv hw hother => ⟨fun hans => ?_,
    fun q extra hq hans => ?_⟩⟩
  · obtain ⟨hfield, hrest⟩ := readModeField_of_answers henv hans
    have hmode : (getMode s).1 = s.params.modeCode.mode? (field v 5 3) := congrArg s.params.modeCode.mode? hfield
    rw [hmode]
    exact ⟨hrest, fun m => code_of_mode?, mode?_eq_none⟩
  · obtain ⟨t, hpoll, -, ht⟩ := requestMode_after_unconfirmed henv hw hother (hans.trans (List.append_assoc ..)) 0
    rw [Nat.zero_add] at hpoll
    rw [hpoll]
    exact ⟨rfl, ht⟩
  · obtain ⟨t, hpoll, hsetup, ht⟩ := requestMode_after_unconfirmed (rest := [q.1, q.2.1, q.2.2] ++ rest) henv hw hother
      (by rw [hans, List.append_assoc, List.append_assoc]; rfl) (extra + 1)
    obtain ⟨hfield, hrest⟩ := readModeField_of_answers (hsetup.env.trans henv) ht
    have hbound : polls.length + 1 + extra = extra + 1 + polls.length := by omega
    rw [hbound, hpoll, pollMode_of_confirmed (by rw [hfield, hq, hsetup.params])]
    exact ⟨rfl, hrest⟩

/-! ## The fail-fast rule (R184, R185) -/

/-- The free check is one READ of the buffer's control register, and tests bit 3 (R184). -/
theorem isTransmitBufferFree_ran (idx : Fin 3) (s : State) :
    ∃ r0 r1 v u, s.Ran
        (bracketEvents [0x03, familyAddr s.params.map.txbCtrl (idxByte idx), s.params.dummyTx] [r0, r1, v])
        (.byte v) u ∧
      isTransmitBufferFree idx s = (!v.getLsbD 3, u) := by
  obtain ⟨r0, r1, v, hran⟩ := primitive_fmtWAR_ran (familyAddr s.params.map.txbCtrl (idxByte idx)) s
  exact ⟨r0, r1, v, _, hran, congrArg (fun b : Byte => (!b.getLsbD 3, _)) hran.res⟩

theorem failFast_of_occupied {idx : Fin 3} {s u : State} (h : isTransmitBufferFree idx s = (false, u))
    (body : State → State) : failFast idx body s = (false, u) := by
  rw [failFast, h]
  rfl

theorem failFast_of_free {idx : Fin 3} {s u : State} (h : isTransmitBufferFree idx s = (true, u))
    (body : State → State) : failFast idx body s = (true, body u) := by
  rw [failFast, h]
  rfl

/-- A data frame's data-length byte is its length (R153). -/
theorem dlcByte_data (mode : RemoteDlc) {len : Byte} (h : len.toNat ≤ 8) : dlcByte mode false len = len :=
  field_low4 h

/-- What `transmit` puts in `WBUF`: the data-length byte and the eight payload bytes, padded to thirteen (R162). -/
def transmitBuffer (p : Params) (len : Fin 9) (data : Vector Byte 8) : Vector Byte 13 :=
  let d := fun (k : Nat) => data.toList.getD k 0
  #v[dlcByte p.remoteDlc false (idxByte len), d 0, d 1, d 2, d 3, d 4, d 5, d 6, d 7, 0, 0, 0, 0]

theorem transmitWrite_eq (p : Params) (idx : Fin 3) (len : Fin 9) (data : Vector Byte 8) :
    transmitWrite p idx len data =
      .write (familyAddr p.map.txbDlc (idxByte idx)) (idxByte len + 1) (transmitBuffer p len data) := rfl

theorem transmitBuffer_toList (p : Params) (len : Fin 9) (data : Vector Byte 8) :
    (transmitBuffer p len data).toList =
      dlcByte p.remoteDlc false (idxByte len) :: (data.toList ++ [0, 0, 0, 0]) := by
  have hlen : data.toList.length = 8 := data.length_toList
  unfold transmitBuffer
  match data.toList, hlen with
  | [_, _, _, _, _, _, _, _], _ => rfl

/-- A WRITE within its limits sends the first `LEN` bytes (R122). -/
theorem run_write_ran {a len : Byte} {wbuf : Vector Byte 13} {bytes : List Byte} (s : State)
    (hlen : 1 ≤ len.toNat ∧ len.toNat ≤ 13) (hbytes : wbuf.toList.take len.toNat = bytes) :
    ∃ rs, rs.length = 2 + len.toNat ∧
      s.Ran (bracketEvents (0x02 :: a :: bytes) rs) .none (s.run (.write a len wbuf)) := by
  have hwrite := (writeSendsItsBytes a len wbuf [] s).1
  rw [if_pos hlen, hbytes] at hwrite
  obtain ⟨rs, t, hrs, he, hran⟩ := hwrite
  obtain rfl := run_of_exec he
  exact ⟨rs, hrs, hran⟩

/-- The WRITE of `transmit` sends the data-length byte and the payload bytes up to it (R162). -/
theorem run_transmitWrite_ran (p : Params) (idx : Fin 3) (len : Fin 9) (data : Vector Byte 8) (s : State) :
    ∃ rs, rs.length = 3 + len.val ∧
      s.Ran (bracketEvents
        ([0x02, familyAddr p.map.txbDlc (idxByte idx), idxByte len] ++ data.toList.take len) rs) .none
        (s.run (transmitWrite p idx len data)) := by
  have hlen : (idxByte len).toNat = len.val := idxByte_toNat (by decide) len
  have hcount : (idxByte len + 1).toNat = len.val + 1 := by bv_omega
  have hlegal : 1 ≤ (idxByte len + 1).toNat ∧ (idxByte len + 1).toNat ≤ 13 := by omega
  have hpayload (pad : List Byte) : (data.toList ++ pad).take len.val = data.toList.take len.val :=
    List.take_append_of_le_length (by rw [data.length_toList]; omega)
  obtain ⟨rs, hrs, hran⟩ := run_write_ran (a := familyAddr p.map.txbDlc (idxByte idx))
    (wbuf := transmitBuffer p len data) s hlegal
    (by rw [hcount, transmitBuffer_toList, List.take_succ_cons, hpayload, dlcByte_data _ (by omega)])
  rw [transmitWrite_eq]
  exact ⟨rs, by omega, hran⟩

/-- Settles O58: the READ of the free check decides whether a body runs, and each body is the one listed. -/
theorem occupiedBufferFailsFast : Obligations.OccupiedBufferFailsFast := by
  intro idx len prio f s
  obtain ⟨r0, r1, v, u, hran, hfree⟩ := isTransmitBufferFree_ran idx s
  refine ⟨r0, r1, v, u, hran, fun hv => ?_, fun hv => ?_⟩
  · rw [hv] at hfree
    have h := failFast_of_occupied hfree
    exact ⟨h _, h _, h _, h _, h _, h _⟩
  · rw [hv] at hfree
    have h := failFast_of_free hfree
    obtain ⟨rs, hlen, hwrite⟩ := run_transmitWrite_ran u.params idx len f.data u
    rw [← hran.params]
    exact ⟨h _, h _, h _, h _, h _, rs, _, _, hlen, hwrite, rfl, h _⟩

/-! ## The transmit request at MOCK (R73, R184, R190) -/

theorem memOk_closed : ClosedUnderOps State.memOk where
  select _ := select_memOk
  deselect _ := deselect_memOk
  xchg _ _ := xchg_memOk
  loadScratch _ _ _ h := h
  complete _ _ _ h := h

theorem run_memOk (i : Instr) {s : State} (h : s.memOk) : (s.run i).memOk := memOk_closed.exec h (exec_eq_run i s)

/-- MOCK goes on answering after an operation (R71, R99). -/
theorem State.MockAnswers.run {s : State} (h : s.MockAnswers) (i : Instr) : (s.run i).MockAnswers where
  env := (run_sameSetup i s).env.trans h.env
  ph := (mockRefusesNoOperation i s _ h.env h.ph (exec_eq_run i s)).1

/-- Against MOCK the free check tests bit 3 of the buffer's control register (R71, R184). -/
theorem mock_isTransmitBufferFree {s : State} (h : s.MockAnswers) (idx : Fin 3) :
    (isTransmitBufferFree idx s).1 = !(s.mock.get (familyAddr s.params.map.txbCtrl (idxByte idx))).getLsbD 3 := by
  obtain ⟨t, he, hres, -⟩ := mockReadGivesTheRegister (familyAddr s.params.map.txbCtrl (idxByte idx)) s h.env h.ph
  obtain rfl := run_of_exec he
  exact congrArg (fun b : Byte => !b.getLsbD 3) (res_of_result hres)

/-- After RTS the request bit is set (R73). -/
theorem mock_request_after_rts {s : State} (h : s.MockAnswers) (w : s.memOk) (idx : Fin 3) :
    ((s.run (.rts (idxByte idx))).mock.get (familyAddr s.params.map.txbCtrl (idxByte idx))).getLsbD 3 = true := by
  have hidx : (idxByte idx).toNat ≤ 2 := by
    rw [idxByte_toNat (by decide)]
    omega
  obtain ⟨t, he, hbits⟩ := mockRequestToSendSetsTheBit (idxByte idx) s h.env h.ph w hidx
  obtain rfl := run_of_exec he
  exact hbits 3

/-- BITMOD stores the merged byte in the addressed register, whatever the address map. -/
theorem mock_get_bitmod {s : State} (h : s.MockAnswers) (w : s.memOk) (a mask v : Byte) :
    (s.run (.bitmod a mask v)).mock.get a = bitModify (s.mock.get a) mask v := by
  obtain ⟨-, hreg⟩ := primitive_begun h .bitmod [.send a, .send mask, .send v] resNone
  exact (mock_get_congr (hreg.trans (feed_bitmod s.params a mask v s.mock)) a).trans
    (mock_get_store_same (m := s.mock.modifying a mask) w s.params a _)

/-- After `abortTransmit` the request bit is clear (R190). -/
theorem mock_request_after_abort {s : State} (h : s.MockAnswers) (w : s.memOk) (idx : Fin 3) :
    ((abortTransmit idx s).mock.get (familyAddr s.params.map.txbCtrl (idxByte idx))).getLsbD 3 = false := by
  rw [abortTransmit, mock_get_bitmod h w]
  exact bitModify_getLsbD _ 0x08 0x00 3

/-- Settles O60: the free check reads the request bit, which RTS sets and the abort clears, at the same address since
no operation changes the map. That it is not the address of `A_CANCTRL` is not needed: the mode echo leaves the register
stored to as it was stored, even where `A_CANSTAT` is the same one. -/
theorem mockBufferOccupiedUntilAborted : Obligations.MockBufferOccupiedUntilAborted := by
  intro idx s henv hph hmem _
  have hs : s.MockAnswers := ⟨henv, hph⟩
  have hsent : (s.run (.rts (idxByte idx))).MockAnswers := hs.run _
  have hparams : (s.run (.rts (idxByte idx))).params = s.params := (run_sameSetup _ s).params
  have habort : (abortTransmit idx (s.run (.rts (idxByte idx)))).params = (s.run (.rts (idxByte idx))).params :=
    (run_sameSetup _ _).params
  refine ⟨(mock_isTransmitBufferFree hsent idx).trans ?_,
    (mock_isTransmitBufferFree (s := abortTransmit idx _) (hsent.run _) idx).trans ?_⟩
  · rw [hparams, mock_request_after_rts hs hmem]
    rfl
  · rw [habort, mock_request_after_abort hsent (run_memOk _ hmem)]
    rfl

end Sys2Proof.Machine

/-! # Rejections and STATUS (60_exceptions.md)

What an operation is rejected with is written out once per checked operation, in the terms of R212 to R214: its causes,
in the order of R220. The statements read it off: a rejected operation is its rejection (`exec_of_rejected`), and
`STATUS` is the code of the rejection, or `OK` (`exec_status`). -/

namespace Sys2Proof.Machine

/-! ## The codes (R27) -/

@[simp] theorem Status.ok_eq : Status.ok = 0 := rfl
@[simp] theorem Status.errIndex_eq : Status.errIndex = 2 := rfl
@[simp] theorem Status.errLen_eq : Status.errLen = 3 := rfl
@[simp] theorem Status.errId_eq : Status.errId = 4 := rfl

/-! ## The causes of a rejection (R212 to R214) -/

/-- The largest count of a fast-path read (R127, R214). -/
def readLimit (pt : StartPoint) : Nat := if pt = .ident then 13 else 8

theorem decide_le_eq_not (n m : Nat) : decide (n ≤ m) = !decide (m < n) := by
  simp only [← Nat.not_lt, decide_not]

/-- A length is in `1..max` exactly when it is neither 0 nor above `max`. -/
theorem decide_length_range (max len : Nat) : decide (1 ≤ len ∧ len ≤ max) = !decide (len = 0 ∨ max < len) := by
  rw [← decide_not, decide_eq_decide]
  omega

theorem txIndexOk_eq (idx : Byte) : txIndexOk idx = !decide (2 < idx.toNat) := decide_le_eq_not _ 2

theorem rxIndexOk_eq (idx : Byte) : rxIndexOk idx = !decide (1 < idx.toNat) := decide_le_eq_not _ 1

theorem dataLengthOk_eq (n : Byte) : dataLengthOk n = !decide (8 < n.toNat) := decide_le_eq_not _ 8

theorem writeLenOk_eq (len : Nat) : writeLenOk len = !decide (len = 0 ∨ 13 < len) := decide_length_range 13 len

theorem readLenOk_eq (pt : StartPoint) (len : Nat) :
    readLenOk pt len = !decide (len = 0 ∨ readLimit pt < len) := by
  cases pt with
  | ident => exact decide_length_range 13 len
  | data => exact decide_length_range 8 len

theorem idFits_eq_not (ty : FrameType) (id : IdOperand) : idFits ty id = !decide (idLimit ty < id.toNat) :=
  (idFits_eq ty id).trans (decide_le_eq_not _ _)

/-- The last check, by the cause that fails it. -/
theorem check_not_decide {P : Prop} [Decidable P] {c : BitVec 3} :
    (if !decide P then none else some c) = if P then some c else none := by
  by_cases h : P <;> simp [h]

/-- A check that is not the last, by the cause that fails it. -/
theorem checkThen_not_decide {P : Prop} [Decidable P] {c : BitVec 3} {o : Option (BitVec 3)} :
    (if !!decide P then some c else o) = if P then some c else o := by
  by_cases h : P <;> simp [h]

/-! ## What each checked operation is rejected with (R216, R220) -/

theorem rejection_write (a len : Byte) (wbuf : Vector Byte 13) :
    Instr.rejection (.write a len wbuf) =
      if len.toNat = 0 ∨ 13 < len.toNat then some Status.errLen else none := by
  rw [Instr.rejection, writeLenOk_eq, check_not_decide]

theorem rejection_rts (idx : Byte) :
    Instr.rejection (.rts idx) = if 2 < idx.toNat then some Status.errIndex else none := by
  rw [Instr.rejection, txIndexOk_eq, check_not_decide]

theorem rejection_rdrxb (idx len : Byte) (pt : StartPoint) :
    Instr.rejection (.rdrxb idx pt len) =
      if 1 < idx.toNat then some Status.errIndex
      else if len.toNat = 0 ∨ readLimit pt < len.toNat then some Status.errLen else none := by
  rw [Instr.rejection, rxIndexOk_eq, readLenOk_eq, checkThen_not_decide, check_not_decide]

theorem rejection_setsid (idx : Byte) (id : IdOperand) :
    Instr.rejection (.setsid idx id) =
      if 2 < idx.toNat then some Status.errIndex
      else if idLimit .standard < id.toNat then some Status.errId else none := by
  rw [Instr.rejection, txIndexOk_eq, idFits_eq_not, checkThen_not_decide, check_not_decide]

theorem rejection_seteid (idx : Byte) (id : IdOperand) :
    Instr.rejection (.seteid idx id) =
      if 2 < idx.toNat then some Status.errIndex
      else if idLimit .extended < id.toNat then some Status.errId else none := by
  rw [Instr.rejection, txIndexOk_eq, idFits_eq_not, checkThen_not_decide, check_not_decide]

theorem rejection_txframe (idx : Byte) (f : CanFrame) :
    Instr.rejection (.txframe idx f) =
      if 2 < idx.toNat then some Status.errIndex
      else if 8 < f.dataLength.toNat then some Status.errLen
      else if idLimit f.frameType < f.id.toNat then some Status.errId else none := by
  rw [Instr.rejection, txIndexOk_eq, dataLengthOk_eq, idFits_eq_not, checkThen_not_decide, checkThen_not_decide,
    check_not_decide]

theorem rejection_rxframe (idx : Byte) :
    Instr.rejection (.rxframe idx) = if 1 < idx.toNat then some Status.errIndex else none := by
  rw [Instr.rejection, rxIndexOk_eq, check_not_decide]

/-! ## The state of a rejection (R210, R221) -/

/-- Settles O20: a rejected operation is its rejection, and the codes of a rejection are those three. -/
theorem rejectionChangesOnlyStatus : Obligations.RejectionChangesOnlyStatus :=
  fun _ _ s h => ⟨exec_of_rejected s h, rejection_code h⟩

/-- Settles O22: in each of the six operations the index is the first cause. -/
theorem indexOutOfRangeIsRejected : Obligations.IndexOutOfRangeIsRejected := by
  intro idx len pt id f s
  refine ⟨fun h => ⟨?_, ?_, ?_, ?_⟩, fun h => ⟨?_, ?_⟩⟩
  · exact exec_of_rejected s ((rejection_rts idx).trans (if_pos h))
  · exact exec_of_rejected s ((rejection_setsid idx id).trans (if_pos h))
  · exact exec_of_rejected s ((rejection_seteid idx id).trans (if_pos h))
  · exact exec_of_rejected s ((rejection_txframe idx f).trans (if_pos h))
  · exact exec_of_rejected s ((rejection_rdrxb idx len pt).trans (if_pos h))
  · exact exec_of_rejected s ((rejection_rxframe idx).trans (if_pos h))

/-- Settles O24: where the index passes, the length is the next cause. -/
theorem lengthOutOfRangeIsRejected : Obligations.LengthOutOfRangeIsRejected := by
  intro a idx len wbuf f s
  have read {pt : StartPoint} (hidx : idx.toNat ≤ 1) (h : len.toNat = 0 ∨ readLimit pt < len.toNat) :
      exec (.rdrxb idx pt len) s = .next (s.rejectedWith 3) :=
    exec_of_rejected s (by rw [rejection_rdrxb, if_neg (Nat.not_lt.2 hidx), if_pos h]; rfl)
  refine ⟨fun h => ?_, read (pt := .ident), read (pt := .data), fun hidx h => ?_⟩
  · exact exec_of_rejected s ((rejection_write a len wbuf).trans (if_pos h))
  · exact exec_of_rejected s (by rw [rejection_txframe, if_neg (Nat.not_lt.2 hidx), if_pos h]; rfl)

/-- Settles O23: where the index and, for TXFRAME, the length pass, the identifier is the last cause. -/
theorem identifierOutOfRangeIsRejected : Obligations.IdentifierOutOfRangeIsRejected := by
  intro idx id f s hidx
  have hidx : ¬2 < idx.toNat := Nat.not_lt.2 hidx
  have transmit {ty : FrameType} (hlen : f.dataLength.toNat ≤ 8) (hty : f.frameType = ty)
      (h : idLimit ty < f.id.toNat) : exec (.txframe idx f) s = .next (s.rejectedWith 4) :=
    exec_of_rejected s (by rw [rejection_txframe, if_neg hidx, if_neg (Nat.not_lt.2 hlen), if_pos (hty ▸ h)]; rfl)
  refine ⟨fun h => ?_, fun h => ?_, transmit, transmit⟩
  · exact exec_of_rejected s ((rejection_setsid idx id).trans ((if_neg hidx).trans (if_pos h)))
  · exact exec_of_rejected s ((rejection_seteid idx id).trans ((if_neg hidx).trans (if_pos h)))

/-! ## STATUS after an operation (R26, R216, R220) -/

/-- Every operation writes `STATUS`: the code it is rejected with, else `OK`. -/
theorem exec_status {i : Instr} {s t : State} (h : exec i s = .next t) :
    t.status = (Instr.rejection i).getD Status.ok := by
  obtain ⟨code, hr, rfl⟩ | ⟨hr, rfl⟩ := exec_cases h
  · rw [hr]
    rfl
  · rw [hr]
    exact finish_status i _

/-- A `STATUS` other than `OK` is the code of a rejection. -/
theorem exec_status_ok_or_rejection {i : Instr} {s t : State} (h : exec i s = .next t) :
    t.status = Status.ok ∨ Instr.rejection i = some t.status := by
  rw [exec_status h]
  cases Instr.rejection i with
  | none => exact .inl rfl
  | some code => exact .inr rfl

/-- An operation with one check ends with `OK` or that check's code. -/
theorem exec_status_of_check {i : Instr} {b : Bool} {c : BitVec 3} {s t : State}
    (hr : Instr.rejection i = if b then none else some c) (h : exec i s = .next t) :
    t.status = Status.ok ∨ t.status = c :=
  (exec_status_ok_or_rejection h).imp_right fun hrej => check_code (hr ▸ hrej)

/-- An operation with two checks ends with `OK` or one of their codes. -/
theorem exec_status_of_two_checks {i : Instr} {b b' : Bool} {c c' : BitVec 3} {s t : State}
    (hr : Instr.rejection i = if !b then some c else if b' then none else some c') (h : exec i s = .next t) :
    t.status = Status.ok ∨ t.status = c ∨ t.status = c' :=
  (exec_status_ok_or_rejection h).imp_right fun hrej => (checkThen_code (hr ▸ hrej)).imp_right check_code

/-- Settles O21: `STATUS` is `OK` or the code of one of the operation's checks. -/
theorem eachOperationHasOnlyItsCodes : Obligations.EachOperationHasOnlyItsCodes := by
  intro s t
  have unchecked {i : Instr} (hr : Instr.rejection i = none) (h : exec i s = .next t) : t.status = 0 := by
    rw [exec_status h, hr]
    rfl
  refine ⟨?_, ?_, ?_, ?_, ?_, ?_, ?_, ?_, ?_, ?_, ?_, ?_⟩
  · intro i hi
    refine unchecked ?_
    simp only [List.mem_cons, List.not_mem_nil, or_false] at hi
    obtain rfl | rfl | rfl | rfl | rfl | rfl | rfl | rfl | rfl := hi <;> rfl
  · exact fun a h => h.elim (unchecked rfl) (unchecked rfl)
  · exact fun a m v h => h.elim (unchecked rfl) (unchecked rfl)
  · exact fun a len wbuf => exec_status_of_check rfl
  · exact fun idx => exec_status_of_check rfl
  · exact fun idx pt len => exec_status_of_two_checks rfl
  · exact fun idx id => exec_status_of_two_checks rfl
  · exact fun idx id => exec_status_of_two_checks rfl
  · exact fun idx f h => (exec_status_ok_or_rejection h).imp_right fun hrej =>
      (checkThen_code hrej).imp_right fun hrej => (checkThen_code hrej).imp_right check_code
  · exact fun idx => exec_status_of_check rfl
  · exact fun a bytes => exec_status_of_check rfl
  · intro k i hi
    simp only [List.mem_cons, List.not_mem_nil, or_false] at hi
    obtain rfl | rfl | rfl | rfl := hi <;> exact exec_status_of_check rfl

/-- `OP` is one of the twelve operation codes or reserved (R81, R101). -/
theorem op_cases (op : BitVec 4) :
    0xC ≤ op.toNat ∨ op = 0x0 ∨ op = 0x1 ∨ op = 0x2 ∨ op = 0x3 ∨ op = 0x4 ∨ op = 0x5 ∨ op = 0x6 ∨ op = 0x7 ∨
      op = 0x8 ∨ op = 0x9 ∨ op = 0xA ∨ op = 0xB := by
  revert op
  decide

/-- A reserved `OP` is reported as `ERR_OP` (R101, R211). -/
theorem issue_status_of_reserved {p : Port} {s t : State} (hop : 0xC ≤ p.op.toNat)
    (h : s.issue (.command p) = .next t) : t.status = Status.errOp := by
  simp only [State.issue, decode, decodeCommand_reserved hop] at h
  cases h
  rfl

/-- An operation issued on the port writes the code it is rejected with, else `OK`. -/
theorem issue_status {p : Port} {i : Instr} {s t : State} (hdec : decodeCommand p = .ok i)
    (h : s.issue (.command p) = .next t) : t.status = (Instr.rejection i).getD Status.ok := by
  simp only [State.issue, decode, hdec] at h
  exact exec_status h

/-- Where a cause is met, its code is reported; else the rest decides. -/
theorem getD_cause {P : Prop} [Decidable P] {c d : BitVec 3} {o : Option (BitVec 3)} :
    (if P then some c else o).getD d = if P then c else o.getD d := by
  split <;> rfl

/-- Settles O25: a reserved `OP` is the first cause, and each operation's causes stand in the order of R220. -/
theorem firstFailingCheckIsReported : Obligations.FirstFailingCheckIsReported := by
  rintro ⟨op, idx, addr, mask, val, len, wbuf, pt, frame⟩ s t h
  obtain hop | rfl | rfl | rfl | rfl | rfl | rfl | rfl | rfl | rfl | rfl | rfl | rfl := op_cases op
  · exact (issue_status_of_reserved hop h).trans (if_pos hop).symm
  · exact issue_status rfl h
  · exact issue_status rfl h
  · rw [issue_status rfl h, rejection_write, getD_cause]
    simp
  · exact issue_status rfl h
  · exact issue_status rfl h
  · exact issue_status rfl h
  · rw [issue_status rfl h, rejection_rts, getD_cause]
    simp
  · rw [issue_status rfl h, rejection_rdrxb, readLimit, getD_cause, getD_cause]
    simp
  · rw [issue_status rfl h, rejection_setsid, idLimit, getD_cause, getD_cause]
    simp
  · rw [issue_status rfl h, rejection_seteid, idLimit, getD_cause, getD_cause]
    simp
  · rw [issue_status rfl h, rejection_txframe, idLimit, getD_cause, getD_cause, getD_cause]
    simp
  · rw [issue_status rfl h, rejection_rxframe, getD_cause]
    simp

end Sys2Proof.Machine

/-! # The block's reset (70_reset_and_hazards.md)

Idle or busy, the block takes the reset as its next move, so one equation describes the step (R240, R242). -/

namespace Sys2Proof.Machine

/-- The host's next move is the block reset: the step is that reset, whether or not an operation is in progress. -/
theorem step_of_reset {s : State} {ms : List Move} (hmock : s.mockStopped = false) (hm : s.moves = .reset :: ms) :
    step s = .next { s with moves := ms }.blockReset := by
  obtain hcur | ⟨i, hcur⟩ := Option.eq_none_or_eq_some s.cur
  · simp only [step_of_ready ⟨hcur, hmock⟩, State.idleStep, hm]
  · simp only [step_of_busy hcur hmock, State.busyStep, hm]

/-- Settles O36: the step is the reset of the state without that move, and each clause is a fact about the reset. -/
theorem blockResetAbandonsOperation : Obligations.BlockResetAbandonsOperation := by
  intro s ms hmock hm
  exact ⟨_, step_of_reset hmock hm, blockReset_cs _, blockReset_cur _, blockReset_status _,
    congrArg ScratchFrame.valid (blockReset_sf _), blockReset_result _, blockReset_moves _, blockReset_params _,
    blockReset_trace _⟩

end Sys2Proof.Machine
